-- ==== Sys2Proof/Word.lean ====
section
/-! DEFINITION. The words of the block (00_scope R9, R10; 30_encoding R70): the 32-bit request word and
result, the 16-bit analog word and running sum, and the byte. Every value is unsigned (R9). -/

namespace Sys2Proof

/-- A request word or a 32-bit result (R70, R74). -/
abbrev Word := BitVec 32

/-- A 16-bit value: an analog reading or the running sum (R29, R31). -/
abbrev Half := BitVec 16

/-- One byte of a channel, of the data port or of the snapshot (R23, R31, R75). -/
abbrev Byte := BitVec 8

end Sys2Proof
end

