-- ==== Sys2Proof/Config.lean ====
section
/-! DEFINITION. What an instance of the block fixes (00_scope R7, R8) and the free values: the values the
spec leaves open, as constants without a body, so that nothing can be proved about which value they are. -/

namespace Sys2Proof

/-- The parameters of 00_scope R7 that an instance chooses. -/
structure Config where
  /-- `C_RX`: capacity in bytes of the RX channel. -/
  cRx : Nat
  /-- `C_TX`: capacity in bytes of the TX channel. -/
  cTx : Nat
  /-- `TX_HYST`: the transmit "space available" threshold in bytes. -/
  txHyst : Nat
  /-- `CNT_W`: width in bits of each diagnostic counter. -/
  cntW : Nat
  /-- `DTC_LABEL[k]`, k = 0..23: the six-character label of each trouble code, or `none` where the instance
  leaves them OPEN, as the reference does (R7; 91_not_in_source N9). -/
  dtcLabel : Option (Vector (Vector Char 6) 24) := none
deriving DecidableEq, Repr

/-- The reference values of R7; `DTC_LABEL` is OPEN there. -/
def Config.reference : Config := { cRx := 128, cTx := 128, txHyst := 8, cntW := 32 }

/-- The legal values of R7, with the constraint `C_TX >= TX_HYST` of 41_port R131. Every choice of labels is legal: they are six characters by type. -/
abbrev Config.Legal (c : Config) : Prop :=
  1 ≤ c.cRx ∧ c.cRx ≤ 65535 ∧ 1 ≤ c.txHyst ∧ c.txHyst ≤ c.cTx ∧ c.cTx ≤ 65535 ∧
    16 ≤ c.cntW ∧ c.cntW ≤ 64

/-- `SYNC1` (R7). -/
def sync1 : Byte := 0x55#8

/-- `SYNC2` (R7). -/
def sync2 : Byte := 0xAA#8

/-- `BODY_LEN` (R7): body bytes per frame. -/
def bodyLen : Nat := 256

/-- `ADC_N` (R7): analog readings per frame. -/
def adcN : Nat := 8

/-- The length of a frame in bytes (R8): 277. -/
def frameLen : Nat := 2 + bodyLen + 1 + 2 * adcN + 2

/-- FREE VALUE. What step number `draw` reads from a byte cell `addr` that no step has written
(10_state R40: "a free draw, not zero, and two such reads may return different values"). -/
opaque Config.freeByte : Nat → Nat → BitVec 8

/-- FREE VALUE. As `Config.freeByte`, for a cell of a 16-bit array (`adc_s`, `adc_p`). -/
opaque Config.freeHalf : Nat → Nat → BitVec 16

/-- FREE VALUE. `DTC_LABEL[k]` where the instance leaves the labels OPEN: any six characters (R7; N9; log 16). -/
opaque Config.openDtcLabel : Fin 24 → Vector Char 6

/-- The label of trouble code `k` in an instance (R7). -/
def Config.labelOf (c : Config) (k : Fin 24) : Vector Char 6 :=
  match c.dtcLabel with
  | some labels => labels.get k
  | none => Config.openDtcLabel k

/-- `DTC_NONE_LABEL` (R7; 90_conflicts C5). -/
def Config.dtcNoneLabel : String := "none"

end Sys2Proof
end

