-- ==== Sys2Proof/Syntax.lean ====
section
/-! DEFINITION. The requests of the block (30_encoding R71, R73), one constructor for each row of
spec/opcode_table.json. Byte operands are bytes; counts, indexes and ordinals are natural numbers whose
range `Instr.WellFormed` checks. -/

namespace Sys2Proof

/-- A channel (10_state R22), also the `CH` operand of R73: 0 selects RX, 1 selects TX. -/
inductive Chan where
  | rx
  | tx
deriving DecidableEq, Repr

/-- The requests of R71. -/
inductive Instr where
  | push (ch : Chan) (b : Byte)
  | popb
  | popnb (ch : Chan) (n : Nat)
  | free (ch : Chan)
  | avail (ch : Chan)
  | write (n : Nat)
  | read (wait : Bool) (n : Nat)
  | wspace
  | ravail
  | rxbyte (b : Byte)
  | txready
  | rxlost
  | feed (b : Byte)
  | wasupd
  | nbytes
  | ngood
  | nbad
  | conn
  | mem (a : Nat)
  | adc (i : Nat)
  | engspd
  | gndspd
  | oilp
  | wtemp
  | volt
  | afr
  | ses
  | run
  | dtc (k : Nat)
deriving DecidableEq, Repr

/-- The requests a word of which can hold its agent (60_exceptions R226): `POPB`, `READ` with `W = 1`,
and `WRITE`. -/
def Instr.canHold : Instr → Bool
  | .popb => true
  | .read wait _ => wait
  | .write _ => true
  | .push _ _ | .popnb _ _ | .free _ | .avail _ | .wspace | .ravail | .rxbyte _ | .txready
  | .rxlost | .feed _ | .wasupd | .nbytes | .ngood | .nbad | .conn | .mem _ | .adc _ | .engspd
  | .gndspd | .oilp | .wtemp | .volt | .afr | .ses | .run | .dtc _ => false

end Sys2Proof
end

