-- ==== Sys2Proof/WellFormed.lean ====
section
/-! DEFINITION. Which requests the encoding can spell (30_encoding R73: every operand in the range of its
field) and which data lists the data port takes (R75). -/

namespace Sys2Proof

/-- Every operand lies in the range of its field (R73): `N` and `k` are 16 bits, `a` is 8 bits, `i` is 3
bits. The other operands have the width of their field by type. -/
def Instr.wellFormed : Instr → Bool
  | .popnb _ n => decide (n < 2 ^ 16)
  | .write n => decide (n < 2 ^ 16)
  | .read _ n => decide (n < 2 ^ 16)
  | .mem a => decide (a < 2 ^ 8)
  | .adc i => decide (i < 2 ^ 3)
  | .dtc k => decide (k < 2 ^ 16)
  | .push _ _ | .popb | .free _ | .avail _ | .wspace | .ravail | .rxbyte _ | .txready | .rxlost
  | .feed _ | .wasupd | .nbytes | .ngood | .nbad | .conn | .engspd | .gndspd | .oilp | .wtemp
  | .volt | .afr | .ses | .run => true

/-- The data list handed over with the request is one the block can be given (R75): exactly `N` bytes for
`WRITE`. The spec gives no other request a data list, and the block does not look at one. -/
def Instr.dataFits (i : Instr) (data : List Byte) : Bool :=
  match i with
  | .write n => decide (data.length = n)
  | _ => true

end Sys2Proof
end

