-- ==== Sys2Proof/Decode.lean ====
section
/-! DEFINITION. The request word (30_encoding R70..R79): its fields, the decoder, which is total and rejects
by name, and the encoder written from the same table. The block is handed the 32-bit word whole; there is no
serialisation into bytes (20_memory R55). -/

namespace Sys2Proof

/-- Why a word spells no request (R76, R77). The name is the model's; the block's answer is the same for
each: status ILLEGAL with no state change. -/
inductive Illegal where
  /-- An `OP` value that R71 does not list (R77). -/
  | reservedOp (op : BitVec 6)
  /-- A nonzero `RSV` field, bits 23:16. -/
  | reservedBits
  /-- `CH` = 1 in a format without a `CH` field, `POPB` among them (R77). -/
  | strayChannel
  /-- `W` = 1 outside `READ`. -/
  | strayWait
  /-- A nonzero bit of 15:0 that the format fixes to 0. -/
  | strayOperand
deriving DecidableEq, Repr

/-! ### The fields of a word (R70) -/

/-- `OP`, bits 31:26. -/
def opField (w : Word) : BitVec 6 := w.extractLsb' 26 6

/-- `CH`, bit 25. -/
def chBit (w : Word) : Bool := w.getLsbD 25

/-- `W`, bit 24. -/
def waitBit (w : Word) : Bool := w.getLsbD 24

/-- `RSV`, bits 23:16. -/
def rsvField (w : Word) : BitVec 8 := w.extractLsb' 16 8

/-- `IMM16`, bits 15:0. -/
def immField (w : Word) : Half := w.extractLsb' 0 16

/-- The word with the given fields, in the layout of R70. -/
def mkWord (op : BitVec 6) (ch wait : Bool) (rsv : BitVec 8) (imm : Half) : Word :=
  (op.setWidth 32 <<< 26) ||| ((BitVec.ofBool ch).setWidth 32 <<< 25) |||
    ((BitVec.ofBool wait).setWidth 32 <<< 24) ||| (rsv.setWidth 32 <<< 16) ||| imm.setWidth 32

/-- The channel a `CH` bit selects (R73). -/
def chanOf : Bool → Chan
  | false => .rx
  | true => .tx

/-- The `CH` bit that selects a channel (R73). -/
def Chan.bit : Chan → Bool
  | .rx => false
  | .tx => true

/-! ### The decoder -/

/-- The formats of R72: which of the bits 25, 24 and 15:0 are operands. -/
inductive Format where
  | CB | C | CN | N | WN | B | I3 | I16 | Z
deriving DecidableEq, Repr

/-- Whether the format has a `CH` field (R72). -/
def Format.hasChannel : Format → Bool
  | .CB | .C | .CN => true
  | .N | .WN | .B | .I3 | .I16 | .Z => false

/-- Whether the format has a `W` field (R72). -/
def Format.hasWait : Format → Bool
  | .WN => true
  | .CB | .C | .CN | .N | .B | .I3 | .I16 | .Z => false

/-- How many of the bits 15:0, from bit 0 up, are operand bits (R72). -/
def Format.operandBits : Format → Nat
  | .CB | .B => 8
  | .CN | .N | .WN | .I16 => 16
  | .I3 => 3
  | .C | .Z => 0

/-- The operands of a word (R73). -/
structure Operands where
  ch : Chan
  wait : Bool
  /-- `word[15:0]`: `N` and `k`; with the upper bits fixed to 0 also `a` and `i`. -/
  imm : Half
deriving DecidableEq, Repr

/-- `word[7:0]`, the byte operand (R73). -/
def Operands.byte (o : Operands) : Byte := o.imm.truncate 8

/-- The opcode map (R71): the format of an `OP` value and the request it spells with given operands. -/
def opcodeRow (op : BitVec 6) : Option (Format × (Operands → Instr)) :=
  match op.toNat with
  | 0x01 => some (.CB, fun o => .push o.ch o.byte)
  | 0x02 => some (.Z, fun _ => .popb)
  | 0x03 => some (.CN, fun o => .popnb o.ch o.imm.toNat)
  | 0x04 => some (.C, fun o => .free o.ch)
  | 0x05 => some (.C, fun o => .avail o.ch)
  | 0x08 => some (.N, fun o => .write o.imm.toNat)
  | 0x09 => some (.WN, fun o => .read o.wait o.imm.toNat)
  | 0x0A => some (.Z, fun _ => .wspace)
  | 0x0B => some (.Z, fun _ => .ravail)
  | 0x0C => some (.B, fun o => .rxbyte o.byte)
  | 0x0D => some (.Z, fun _ => .txready)
  | 0x0E => some (.Z, fun _ => .rxlost)
  | 0x10 => some (.B, fun o => .feed o.byte)
  | 0x11 => some (.Z, fun _ => .wasupd)
  | 0x12 => some (.Z, fun _ => .nbytes)
  | 0x13 => some (.Z, fun _ => .ngood)
  | 0x14 => some (.Z, fun _ => .nbad)
  | 0x15 => some (.Z, fun _ => .conn)
  | 0x16 => some (.B, fun o => .mem o.imm.toNat)
  | 0x17 => some (.I3, fun o => .adc o.imm.toNat)
  | 0x20 => some (.Z, fun _ => .engspd)
  | 0x21 => some (.Z, fun _ => .gndspd)
  | 0x22 => some (.Z, fun _ => .oilp)
  | 0x23 => some (.Z, fun _ => .wtemp)
  | 0x24 => some (.Z, fun _ => .volt)
  | 0x25 => some (.Z, fun _ => .afr)
  | 0x26 => some (.Z, fun _ => .ses)
  | 0x27 => some (.Z, fun _ => .run)
  | 0x28 => some (.I16, fun o => .dtc o.imm.toNat)
  | _ => none

/-- Decode given fields (R72, R76): the `OP` value must be listed and every bit its format fixes must be 0. -/
def decodeFields (op : BitVec 6) (ch wait : Bool) (rsv : BitVec 8) (imm : Half) :
    Except Illegal Instr :=
  match opcodeRow op with
  | none => .error (.reservedOp op)
  | some (f, build) =>
    if rsv ≠ 0#8 then .error .reservedBits
    else if ch = true ∧ f.hasChannel = false then .error .strayChannel
    else if wait = true ∧ f.hasWait = false then .error .strayWait
    else if 2 ^ f.operandBits ≤ imm.toNat then .error .strayOperand
    else .ok (build { ch := chanOf ch, wait := wait, imm := imm })

/-- The decoder (R79): every word is exactly one request with its operands, or illegal. -/
def decode (w : Word) : Except Illegal Instr :=
  decodeFields (opField w) (chBit w) (waitBit w) (rsvField w) (immField w)

/-! ### The encoder -/

/-- The word of a request (R71, R72, R80). -/
def encode : Instr → Word
  | .push ch b => mkWord 0x01 ch.bit false 0 (b.setWidth 16)
  | .popb => mkWord 0x02 false false 0 0
  | .popnb ch n => mkWord 0x03 ch.bit false 0 (BitVec.ofNat 16 n)
  | .free ch => mkWord 0x04 ch.bit false 0 0
  | .avail ch => mkWord 0x05 ch.bit false 0 0
  | .write n => mkWord 0x08 false false 0 (BitVec.ofNat 16 n)
  | .read wait n => mkWord 0x09 false wait 0 (BitVec.ofNat 16 n)
  | .wspace => mkWord 0x0A false false 0 0
  | .ravail => mkWord 0x0B false false 0 0
  | .rxbyte b => mkWord 0x0C false false 0 (b.setWidth 16)
  | .txready => mkWord 0x0D false false 0 0
  | .rxlost => mkWord 0x0E false false 0 0
  | .feed b => mkWord 0x10 false false 0 (b.setWidth 16)
  | .wasupd => mkWord 0x11 false false 0 0
  | .nbytes => mkWord 0x12 false false 0 0
  | .ngood => mkWord 0x13 false false 0 0
  | .nbad => mkWord 0x14 false false 0 0
  | .conn => mkWord 0x15 false false 0 0
  | .mem a => mkWord 0x16 false false 0 (BitVec.ofNat 16 a)
  | .adc i => mkWord 0x17 false false 0 (BitVec.ofNat 16 i)
  | .engspd => mkWord 0x20 false false 0 0
  | .gndspd => mkWord 0x21 false false 0 0
  | .oilp => mkWord 0x22 false false 0 0
  | .wtemp => mkWord 0x23 false false 0 0
  | .volt => mkWord 0x24 false false 0 0
  | .afr => mkWord 0x25 false false 0 0
  | .ses => mkWord 0x26 false false 0 0
  | .run => mkWord 0x27 false false 0 0
  | .dtc k => mkWord 0x28 false false 0 (BitVec.ofNat 16 k)

/-! ### The table's match and mask (R72)

The second description of the encodings the spec gives, kept beside the decoder so that the two can be held
against each other: "A word decodes as mnemonic M exactly when (word AND mask_M) = match_M". -/

/-- `mask_M` of a format (R72). -/
def Format.mask : Format → Word
  | .CB => 0xFDFFFF00
  | .C => 0xFDFFFFFF
  | .CN => 0xFDFF0000
  | .N => 0xFFFF0000
  | .WN => 0xFEFF0000
  | .B => 0xFFFFFF00
  | .I3 => 0xFFFFFFF8
  | .I16 => 0xFFFF0000
  | .Z => 0xFFFFFFFF

/-- The rows of R71: mnemonic, `OP`, format. -/
def opcodeTable : List (String × BitVec 6 × Format) :=
  [("PUSH", 0x01, .CB), ("POPB", 0x02, .Z), ("POPNB", 0x03, .CN), ("FREE", 0x04, .C),
   ("AVAIL", 0x05, .C), ("WRITE", 0x08, .N), ("READ", 0x09, .WN), ("WSPACE", 0x0A, .Z),
   ("RAVAIL", 0x0B, .Z), ("RXBYTE", 0x0C, .B), ("TXREADY", 0x0D, .Z), ("RXLOST", 0x0E, .Z),
   ("FEED", 0x10, .B), ("WASUPD", 0x11, .Z), ("NBYTES", 0x12, .Z), ("NGOOD", 0x13, .Z),
   ("NBAD", 0x14, .Z), ("CONN", 0x15, .Z), ("MEM", 0x16, .B), ("ADC", 0x17, .I3),
   ("ENGSPD", 0x20, .Z), ("GNDSPD", 0x21, .Z), ("OILP", 0x22, .Z), ("WTEMP", 0x23, .Z),
   ("VOLT", 0x24, .Z), ("AFR", 0x25, .Z), ("SES", 0x26, .Z), ("RUN", 0x27, .Z),
   ("DTC", 0x28, .I16)]

/-- The mnemonic of a request (R71). -/
def Instr.mnemonic : Instr → String
  | .push _ _ => "PUSH"
  | .popb => "POPB"
  | .popnb _ _ => "POPNB"
  | .free _ => "FREE"
  | .avail _ => "AVAIL"
  | .write _ => "WRITE"
  | .read _ _ => "READ"
  | .wspace => "WSPACE"
  | .ravail => "RAVAIL"
  | .rxbyte _ => "RXBYTE"
  | .txready => "TXREADY"
  | .rxlost => "RXLOST"
  | .feed _ => "FEED"
  | .wasupd => "WASUPD"
  | .nbytes => "NBYTES"
  | .ngood => "NGOOD"
  | .nbad => "NBAD"
  | .conn => "CONN"
  | .mem _ => "MEM"
  | .adc _ => "ADC"
  | .engspd => "ENGSPD"
  | .gndspd => "GNDSPD"
  | .oilp => "OILP"
  | .wtemp => "WTEMP"
  | .volt => "VOLT"
  | .afr => "AFR"
  | .ses => "SES"
  | .run => "RUN"
  | .dtc _ => "DTC"

/-- `match_M` of a row: `OP << 26` (R72). -/
def matchOf (op : BitVec 6) : Word := op.setWidth 32 <<< 26

/-! ### The host's view of the decoder -/

/-- The request the decoder reads from the word `w` of `nbits` bits (every bit above `nbits` is 0); `none`
where it refuses. -/
def decodeTableWord (nbits w : Nat) : Option Instr :=
  match decode (BitVec.ofNat 32 (w % 2 ^ nbits)) with
  | .ok i => some i
  | .error _ => none

end Sys2Proof
end

