-- ==== Sys2Proof/Machine/State.lean ====
section
/-! DEFINITION. The state of the block (10_state R20..R40), the agents and their requests (00_scope R12..R14),
the reasons a step can stop, and the state after reset (R39). -/

namespace Sys2Proof.Machine

/-! ### Arrays -/

/-- One of the six arrays of 20_memory R50, with elements of `w` bits: the cells some step has written, as
(index, value) pairs with strictly rising indexes. An index that is not listed has never been written and
holds no known value (10_state R40). A byte array is a list of `Host.Cell`. -/
abbrev Memory (w : Nat) := List (Nat × BitVec w)

/-! ### Agents, contexts and roles -/

/-- The five agents (00_scope R12). -/
inductive Agent where
  /-- The UART receive interrupt. -/
  | rxi
  /-- The UART transmit-empty interrupt. -/
  | txi
  /-- The receive-consumer task. -/
  | rxt
  /-- The transmit-producer task. -/
  | txt
  /-- The display task. -/
  | ui
deriving DecidableEq, Repr

/-- One value for each agent. -/
structure PerAgent (α : Type) where
  rxi : α
  txi : α
  rxt : α
  txt : α
  ui : α
deriving DecidableEq, Repr

/-- The roles of 60_exceptions R227, each for one agent at a time. -/
inductive Role where
  | rxProducer
  | rxConsumer
  | txProducer
  | txConsumer
  | decoderFeeder
  | updateConsumer
deriving DecidableEq, Repr

/-- The agent that holds each role, if one does (R227). -/
structure Roles where
  rxProducer : Option Agent
  rxConsumer : Option Agent
  txProducer : Option Agent
  txConsumer : Option Agent
  decoderFeeder : Option Agent
  updateConsumer : Option Agent
deriving DecidableEq, Repr

/-! ### Requests and responses -/

/-- A request an agent issues: its word and the bytes it hands over on the data port (R70, R75). -/
structure Request where
  word : Word
  data : List Byte
deriving DecidableEq, Repr

/-- The status of a response (R74). -/
inductive Status where
  | ok
  | illegal
deriving DecidableEq, Repr

/-- A response (R74): status, 32-bit result, data-out bytes. -/
structure Response where
  status : Status
  result : Word
  data : List Byte
deriving DecidableEq, Repr

/-- The continuation of a request that is held or partly done (10_state R37). The retry point of R103 is the
start of the request's pseudocode for every request that has one, so the request itself records it. -/
structure Continuation where
  /-- The request word. -/
  word : Word
  /-- For `WRITE`, the bytes already copied into TX; 0 for the others. -/
  done : Nat
  /-- For `WRITE`, the data bytes still to copy. -/
  rest : List Byte
  /-- The channel whose wake flag the request is held on; `none` when it is in flight and not held (R121). -/
  waiting : Option Chan
deriving DecidableEq, Repr

/-- The request the block is performing in this step: who issued it, its word, and for `WRITE` how far it has
got. The model's own field (log 9): it holds the operands R70 and R75 hand to the block. -/
structure Port where
  agent : Agent
  word : Word
  done : Nat
  rest : List Byte
deriving DecidableEq, Repr

/-! ### The event history -/

/-- The conditions of 60_exceptions R221, with what each records; `Condition.code` (Machine/Operands.lean) gives
the numbers. The block goes on after codes 1 to 6 (R223); codes 7 to 9 end the run in a `Refusal`. -/
inductive Condition where
  /-- Code 1. -/
  | illegalCommand (w : Word)
  /-- Code 2. -/
  | framingError (b : Byte)
  /-- Code 3: `sum` and the byte. -/
  | checksumFailure (sum : Half) (b : Byte)
  /-- Code 4. -/
  | rxOverflow (b : Byte)
  /-- Code 5. -/
  | pushFull (ch : Chan)
  /-- Code 6. -/
  | stateRecovery (b : Byte)
  /-- Code 7. -/
  | contextRefused (a : Agent) (w : Word)
  /-- Code 8. -/
  | roleRefused (a : Agent) (w : Word)
  /-- Code 9. -/
  | dataRefused (a : Agent) (w : Word)
deriving DecidableEq, Repr

/-- An entry of the event history (00_scope R14). -/
inductive Event where
  /-- An agent issues a request. -/
  | request (a : Agent) (w : Word) (data : List Byte)
  /-- The request completes. -/
  | response (a : Agent) (w : Word) (r : Response)
  /-- The request is held on a channel's wake flag (R103). -/
  | hold (a : Agent) (ch : Chan)
  /-- A held request resumes (R103). -/
  | resume (a : Agent) (ch : Chan)
  /-- The output event `TxStart` (41_port R127). -/
  | txStart
  /-- The request meets a condition of R221. -/
  | condition (c : Condition)
deriving DecidableEq, Repr

/-! ### The units -/

/-- One Byte Channel (10_state R23). The cursors and the count are integers; R25 is their invariant. -/
structure Channel where
  buf : Memory 8
  rd : Nat
  wr : Nat
  count : Nat
  wake : Bool
deriving DecidableEq, Repr

/-- The decoder state (10_state R27). -/
inductive DState where
  | awaitSync1
  | awaitSync2
  | readingBody
  | readingStatus
  | readingAnalog
  | awaitChecksumHi
  | awaitChecksumLo
  /-- Code 7, which no rule writes (42_decoder R160). -/
  | unrecognized
deriving DecidableEq, Repr

/-- The 3-bit code of a decoder state (R27). -/
def DState.code : DState → BitVec 3
  | .awaitSync1 => 0
  | .awaitSync2 => 1
  | .readingBody => 2
  | .readingStatus => 3
  | .readingAnalog => 4
  | .awaitChecksumHi => 5
  | .awaitChecksumLo => 6
  | .unrecognized => 7

/-! ### The outside of the block -/

/-- What happens next: an agent's step is taken (R12, R228), or reset is asserted (70_reset R250). -/
inductive Choice where
  | agent (a : Agent)
  | reset
deriving DecidableEq, Repr

/-! ### The state -/

/-- The whole state. The counters are natural numbers below `2 ^ CNT_W`; every write to one takes its
operand modulo `2 ^ CNT_W` (R10, R34). -/
structure State where
  /-- The parameters of the instance (00_scope R7); no step changes them. -/
  cfg : Config
  /-- The RX channel (R22, R23). -/
  rx : Channel
  /-- The TX channel (R22, R23). -/
  tx : Channel
  /-- `rx_lost` (R26). -/
  rxLost : Nat
  /-- `dstate` (R27). -/
  dstate : DState
  /-- `idx` (R28). -/
  idx : BitVec 9
  /-- `sum` (R29). -/
  sum : Half
  /-- `mem_s` (R30). -/
  memS : Memory 8
  /-- `adc_s` (R30). -/
  adcS : Memory 16
  /-- `mem_p` (R31). -/
  memP : Memory 8
  /-- `adc_p` (R31). -/
  adcP : Memory 16
  /-- `updated` (R32). -/
  updated : Bool
  /-- `connected` (R33). -/
  connected : Bool
  /-- `n_bytes` (R34). -/
  nBytes : Nat
  /-- `n_good` (R34). -/
  nGood : Nat
  /-- `n_bad` (R34). -/
  nBad : Nat
  /-- Per agent, the continuation of its request in flight (R37). -/
  conts : PerAgent (Option Continuation)
  /-- Who holds each role (60_exceptions R227). -/
  roles : Roles
  /-- The event history, oldest event first (00_scope R14). -/
  history : List Event
  /-- MODEL's own (log 6): the number of the current step, which the free values are applied to. -/
  draws : Nat
  /-- MODEL's own (log 9): the request being performed. -/
  port : Port
  /-- MODEL's own (log 1): what each agent will issue, its own program outside the block (R21). -/
  programs : PerAgent (List Request)
  /-- MODEL's own (log 1): what happens next, the scheduler's choice (R228) and reset. -/
  schedule : List Choice
deriving DecidableEq, Repr

/-- Why a step faults. -/
inductive Fault where
  /-- Raised by `FEED` in ReadingBody when `idx` is 256 or more: `mem_s[idx]` does not exist (R50), and R155
  says "idx is 0..255 here". No run from reset reaches it. Safe: the model stops where the spec gives no
  meaning (log 10). -/
  | stagingIndex (idx : BitVec 9)
deriving DecidableEq, Repr

/-- Why a step is refused: "the model gives no meaning to anything after it" (00_scope R13). The refusals of
R221 carry the event history of the refused run, whose last event is the condition that ended it. -/
inductive Refusal where
  /-- Raised by an arm of `exec` whose instruction has no meaning yet; none is left. Safe. -/
  | notModelled (mnemonic : String)
  /-- Code 7 of R221, raised by a request that can hold, issued by an interrupt-context agent (R226).
  Safe: the spec refuses it. -/
  | contextRefused (a : Agent) (w : Word) (history : List Event)
  /-- Code 8 of R221, raised by a request in a role another agent holds (R227). Safe: the spec refuses it. -/
  | roleRefused (a : Agent) (w : Word) (history : List Event)
  /-- Code 9 of R221, raised by a `WRITE` whose data list is not `N` bytes (R75). Safe: the spec refuses it. -/
  | dataRefused (a : Agent) (w : Word) (history : List Event)
  /-- Raised by every step of an instance whose parameters are not legal, `C_TX < TX_HYST` among them (R7,
  R131, R262): the spec says a model must reject it. Safe (log 3). -/
  | illegalConfiguration
deriving DecidableEq, Repr

/-! ### Reset -/

/-- A channel right after reset (R39). -/
def Channel.empty : Channel := { buf := [], rd := 0, wr := 0, count := 0, wake := false }

/-- The idle request port (log 9). -/
def Port.idle : Port := { agent := .ui, word := 0, done := 0, rest := [] }

/-- The same value for each agent. -/
def PerAgent.all {α : Type} (x : α) : PerAgent α := { rxi := x, txi := x, rxt := x, txt := x, ui := x }

/-- No role held (R252). -/
def Roles.none : Roles :=
  { rxProducer := .none, rxConsumer := .none, txProducer := .none, txConsumer := .none,
    decoderFeeder := .none, updateConsumer := .none }

/-- An instance with parameters `cfg` right after reset (R39, R250), nothing placed outside it. The elements
R39 leaves unspecified: the arrays list no cell; `idx` and `sum` are 0 (log 4). -/
def State.resetWith (cfg : Config) : State :=
  { cfg := cfg
    rx := Channel.empty
    tx := Channel.empty
    rxLost := 0
    dstate := .awaitSync1
    idx := 0
    sum := 0
    memS := []
    adcS := []
    memP := []
    adcP := []
    updated := false
    connected := false
    nBytes := 0
    nGood := 0
    nBad := 0
    conts := PerAgent.all .none
    roles := Roles.none
    history := []
    draws := 0
    port := Port.idle
    programs := PerAgent.all []
    schedule := [] }

/-- The machine right after reset, with the reference parameters of 00_scope R7. -/
def State.reset : State := State.resetWith Config.reference

end Sys2Proof.Machine
end

