-- ==== Sys2Proof/Machine/Memory.lean ====
section
/-! DEFINITION. Reading and writing one element of an array (20_memory R50), and the canonical form. What an
unlisted cell reads as is `Memory.fetch`'s one definition: a free draw (10_state R40). -/

namespace Sys2Proof.Machine

/-- The value written at index `a`, if one was. -/
def Memory.read? {w : Nat} : Memory w → Nat → Option (BitVec w)
  | [], _ => none
  | (k, v) :: rest, a => if a = k then some v else Memory.read? rest a

/-- Write `v` at index `a`, keeping the indexes strictly rising. -/
def Memory.write {w : Nat} : Memory w → Nat → BitVec w → Memory w
  | [], a, v => [(a, v)]
  | (k, u) :: rest, a, v =>
    if a < k then (a, v) :: (k, u) :: rest
    else if a = k then (a, v) :: rest
    else (k, u) :: Memory.write rest a v

/-- The canonical form of an array of `size` elements: strictly rising indexes, all of them in the array's
index range (R50). An unlisted index has no fixed value, so no listed entry is superfluous. -/
abbrev Memory.wf {w : Nat} (size : Nat) (m : Memory w) : Prop :=
  (m.map Prod.fst).Pairwise (· < ·) ∧ ∀ c ∈ m, c.1 < size

/-- What a step reads at index `a`: the value written there, or else `free a`, the step's free draw. -/
def Memory.fetch {w : Nat} (free : Nat → BitVec w) (m : Memory w) (a : Nat) : BitVec w :=
  (Memory.read? m a).getD (free a)

/-- What the current step reads at index `a` of a byte array. -/
def State.byteAt (s : State) (m : Memory 8) (a : Nat) : Byte :=
  Memory.fetch (Config.freeByte s.draws) m a

/-- What the current step reads at index `i` of a 16-bit array. -/
def State.halfAt (s : State) (m : Memory 16) (i : Nat) : Half :=
  Memory.fetch (Config.freeHalf s.draws) m i

end Sys2Proof.Machine
end

