-- ==== Sys2Proof/Machine/Operands.lean ====
section
/-! DEFINITION. What a request names: the channel of a `CH` operand and its capacity (30_encoding R73,
00_scope R7), the agent that issues it, its context (60_exceptions R231) and its roles (R227), and the
snapshot elements the view reads (20_memory R52); and the numbers of the statuses and conditions. -/

namespace Sys2Proof.Machine

/-! ### Per-agent state -/

/-- The value of agent `a`. -/
def PerAgent.get {α : Type} (p : PerAgent α) : Agent → α
  | .rxi => p.rxi
  | .txi => p.txi
  | .rxt => p.rxt
  | .txt => p.txt
  | .ui => p.ui

/-- The same with agent `a`'s value replaced. -/
def PerAgent.set {α : Type} (p : PerAgent α) (a : Agent) (x : α) : PerAgent α :=
  match a with
  | .rxi => { p with rxi := x }
  | .txi => { p with txi := x }
  | .rxt => { p with rxt := x }
  | .txt => { p with txt := x }
  | .ui => { p with ui := x }

/-- Whether the agent runs in interrupt context (R231); the others run in task context. -/
def Agent.isInterrupt : Agent → Bool
  | .rxi => true
  | .txi => true
  | .rxt => false
  | .txt => false
  | .ui => false

/-! ### Roles -/

/-- The holder of a role. -/
def Roles.get (r : Roles) : Role → Option Agent
  | .rxProducer => r.rxProducer
  | .rxConsumer => r.rxConsumer
  | .txProducer => r.txProducer
  | .txConsumer => r.txConsumer
  | .decoderFeeder => r.decoderFeeder
  | .updateConsumer => r.updateConsumer

/-- The same with the role held by agent `a`. -/
def Roles.give (r : Roles) (role : Role) (a : Agent) : Roles :=
  match role with
  | .rxProducer => { r with rxProducer := some a }
  | .rxConsumer => { r with rxConsumer := some a }
  | .txProducer => { r with txProducer := some a }
  | .txConsumer => { r with txConsumer := some a }
  | .decoderFeeder => { r with decoderFeeder := some a }
  | .updateConsumer => { r with updateConsumer := some a }

/-- The producer role of a channel (R227). -/
def producerRole : Chan → Role
  | .rx => .rxProducer
  | .tx => .txProducer

/-- The consumer role of a channel (R227). -/
def consumerRole : Chan → Role
  | .rx => .rxConsumer
  | .tx => .txConsumer

/-! ### Channels -/

/-- The channel a `CH` operand names (R73). -/
def State.chan (s : State) : Chan → Channel
  | .rx => s.rx
  | .tx => s.tx

/-- The state with the named channel replaced. -/
def State.setChan (s : State) (ch : Chan) (c : Channel) : State :=
  match ch with
  | .rx => { s with rx := c }
  | .tx => { s with tx := c }

/-- `C_ch`, the capacity of the named channel (R22). -/
def Config.cap (cfg : Config) : Chan → Nat
  | .rx => cfg.cRx
  | .tx => cfg.cTx

/-- `free(ch) = C_ch - ch.count` (00_scope R11). -/
def State.freeOf (s : State) (ch : Chan) : Nat :=
  Config.cap s.cfg ch - (s.chan ch).count

/-! ### The snapshot -/

/-- `mem_p[a]` (R31). -/
def State.mem (s : State) (a : Nat) : Byte := s.byteAt s.memP a

/-- `adc_p[i]` (R31). -/
def State.adc (s : State) (i : Nat) : Half := s.halfAt s.adcP i

/-! ### Codes -/

/-- The value of a status (30_encoding R74). -/
def Status.code : Status → Nat
  | .ok => 0
  | .illegal => 1

/-- The code of a condition (60_exceptions R221). -/
def Condition.code : Condition → Nat
  | .illegalCommand _ => 1
  | .framingError _ => 2
  | .checksumFailure _ _ => 3
  | .rxOverflow _ => 4
  | .pushFull _ => 5
  | .stateRecovery _ => 6
  | .contextRefused _ _ => 7
  | .roleRefused _ _ => 8
  | .dataRefused _ _ => 9

/-! ### Results -/

/-- A result narrower than 32 bits, zero-extended (R74); a wider counter's low 32 bits (R129, R182). -/
def resultOf (n : Nat) : Word := BitVec.ofNat 32 n

/-- A boolean result (R74). -/
def boolResult (b : Bool) : Word := if b then 1 else 0

end Sys2Proof.Machine
end

