-- ==== Sys2Proof/Machine/Flags.lean ====
section
/-! DEFINITION. Every flag of the block and what sets and clears it (10_state R24, R32, R33, R35; 41_port
R131), and the diagnostic counters (R34). -/

namespace Sys2Proof.Machine

/-- The channel with its wake flag set or cleared. -/
def Channel.withWake (c : Channel) (b : Bool) : Channel := { c with wake := b }

/-- Set `RX.wake`, on a successful write into RX (R24); a write into TX sets no flag. -/
def State.signalWrite (s : State) (ch : Chan) : State :=
  match ch with
  | .rx => { s with rx := s.rx.withWake true }
  | .tx => s

/-- Clear `ch.wake`, when a held request resumes (R103). -/
def State.clearWake (s : State) (ch : Chan) : State :=
  s.setChan ch ((s.chan ch).withWake false)

/-- `TxHyst(f0, f1)` (R131): set `TX.wake` when the free space goes from below `TX_HYST` to `TX_HYST` or
more. -/
def State.txHyst (s : State) (f0 f1 : Nat) : State :=
  if f0 < s.cfg.txHyst ∧ s.cfg.txHyst ≤ f1 then { s with tx := s.tx.withWake true } else s

/-- The hysteresis rule as the removal requests apply it: on TX `TxHyst`, on RX nothing (R105, R131). -/
def State.signalRemoval (s : State) (ch : Chan) (f0 f1 : Nat) : State :=
  match ch with
  | .rx => s
  | .tx => s.txHyst f0 f1

/-- A counter one higher, modulo `2 ^ CNT_W` (R10, R34). -/
def bump (cfg : Config) (n : Nat) : Nat := (n + 1) % 2 ^ cfg.cntW

end Sys2Proof.Machine
end

