-- ==== Sys2Proof/Machine/Ops.lean ====
section
/-! DEFINITION. The named operations every request is built from (00_scope R11): the channel primitives
`ChPut` and `ChGet`, the end of a step (`respond`, `WaitOn`, `raise IllegalCommand`, a WRITE that stays in
flight), the context, role and data checks, and reset.

The block takes no trap: there is no exception entry and no return from one (60_exceptions R220, R229, R230).
What stands in their place is `raiseIllegal` and `holdOn` with its resumption in Machine/Sched.lean. -/

namespace Sys2Proof.Machine

/-! ### Channel primitives -/

/-- `ChPut(ch, b)` (40_channel R100) on a channel of capacity `cap`. -/
def Channel.put (cap : Nat) (c : Channel) (b : Byte) : Channel :=
  { c with buf := Memory.write c.buf c.wr b, wr := (c.wr + 1) % cap, count := c.count + 1 }

/-- `ChPut` of each byte of a list, in list order (R121). -/
def Channel.putAll (cap : Nat) : Channel → List Byte → Channel
  | c, [] => c
  | c, b :: bs => Channel.putAll cap (c.put cap b) bs

/-- The byte `ChGet(ch)` returns (R101); `free` is the step's free draw. -/
def Channel.head (free : Nat → Byte) (c : Channel) : Byte := Memory.fetch free c.buf c.rd

/-- What `ChGet(ch)` leaves (R101). -/
def Channel.drop1 (cap : Nat) (c : Channel) : Channel :=
  { c with rd := (c.rd + 1) % cap, count := c.count - 1 }

/-- `n` successive `ChGet` (R101): the bytes, oldest first, and the channel they leave. -/
def Channel.getN (free : Nat → Byte) (cap : Nat) : Nat → Channel → List Byte × Channel
  | 0, c => ([], c)
  | n + 1, c =>
    let r := Channel.getN free cap n (c.drop1 cap)
    (c.head free :: r.1, r.2)

/-- Remove the `n` oldest bytes of the named channel: the bytes and the state. -/
def State.take (s : State) (ch : Chan) (n : Nat) : List Byte × State :=
  let r := (s.chan ch).getN (Config.freeByte s.draws) (Config.cap s.cfg ch) n
  (r.1, s.setChan ch r.2)

/-- Append one byte to the named channel. -/
def State.putByte (s : State) (ch : Chan) (b : Byte) : State :=
  s.setChan ch ((s.chan ch).put (Config.cap s.cfg ch) b)

/-! ### The event history -/

/-- Append an event (R14). -/
def State.emit (s : State) (e : Event) : State := { s with history := s.history ++ [e] }

/-- Record a condition of R221. -/
def State.meets (s : State) (c : Condition) : State := s.emit (.condition c)

/-! ### The end of a step -/

/-- The state after `respond(status, result, data)` (R11, R74): the agent has no continuation (R37), the
history records the response, and the step's number is used up. -/
def State.answer (s : State) (status : Status) (result : Word) (data : List Byte) : State :=
  { s with
    conts := s.conts.set s.port.agent none
    history := s.history ++
      [.response s.port.agent s.port.word { status := status, result := result, data := data }]
    draws := s.draws + 1 }

/-- The agent's request stays unfinished: its continuation records where it stands (R37). -/
def State.suspend (s : State) (waiting : Option Chan) : State :=
  { s with
    conts := s.conts.set s.port.agent
      (some { word := s.port.word, done := s.port.done, rest := s.port.rest, waiting := waiting })
    draws := s.draws + 1 }

/-- `respond(OK, result, data)`. -/
def respond (s : State) (result : Word) (data : List Byte) : Host.Outcome State Fault Refusal :=
  .next (s.answer .ok result data)

/-- `raise IllegalCommand(word)` (R76): status ILLEGAL, no other effect. -/
def raiseIllegal (s : State) : Host.Outcome State Fault Refusal :=
  .next ((s.meets (.illegalCommand s.port.word)).answer .illegal 0 [])

/-- `WaitOn(ch.wake)` (R103): the step ends with the request held on `ch`. -/
def holdOn (s : State) (ch : Chan) : Host.Outcome State Fault Refusal :=
  .next ((s.suspend (some ch)).emit (.hold s.port.agent ch))

/-- The request stays in flight, not held; its next step runs the retry point again (R121). -/
def stayInFlight (s : State) : Host.Outcome State Fault Refusal :=
  .next (s.suspend none)

/-! ### Refusals (00_scope R13), each recorded in the event history of the run it ends (R221) -/

/-- The refusal of code 7. -/
def refuseContext (s : State) : Host.Outcome State Fault Refusal :=
  .refused (.contextRefused s.port.agent s.port.word
    (s.meets (.contextRefused s.port.agent s.port.word)).history)

/-- The refusal of code 8. -/
def refuseRole (s : State) : Host.Outcome State Fault Refusal :=
  .refused (.roleRefused s.port.agent s.port.word
    (s.meets (.roleRefused s.port.agent s.port.word)).history)

/-- The refusal of code 9. -/
def refuseData (s : State) : Host.Outcome State Fault Refusal :=
  .refused (.dataRefused s.port.agent s.port.word
    (s.meets (.dataRefused s.port.agent s.port.word)).history)

/-! ### The checks of 60_exceptions R222, in its order -/

/-- The context check (R226): a request that can hold is refused to an interrupt-context agent. -/
def taskOnly (s : State) (run : State → Host.Outcome State Fault Refusal) :
    Host.Outcome State Fault Refusal :=
  if s.port.agent.isInterrupt = true then refuseContext s
  else run s

/-- The role check (R227): the first agent to use a role holds it, and any other agent is refused. -/
def asRole (role : Role) (s : State) (run : State → Host.Outcome State Fault Refusal) :
    Host.Outcome State Fault Refusal :=
  match s.roles.get role with
  | none => run { s with roles := s.roles.give role s.port.agent }
  | some a =>
    if a = s.port.agent then run s else refuseRole s

/-- The data check (R75): the data list of a `WRITE` is `n` bytes long. The bytes already copied count. -/
def withData (n : Nat) (s : State) (run : State → Host.Outcome State Fault Refusal) :
    Host.Outcome State Fault Refusal :=
  if s.port.done + s.port.rest.length = n then run s
  else refuseData s

/-! ### Reset -/

/-- Reset (70_reset R250): every element of the block at its value of R39, continuations and roles gone
(R252), and a new run begins. What is outside the block stays: the parameters, the agents' programs and the
rest of the schedule; so does the number of the free draws, so that no draw is repeated (log 15). -/
def resetBlock (s : State) : State :=
  { State.resetWith s.cfg with
    draws := s.draws + 1
    programs := s.programs
    schedule := s.schedule }

end Sys2Proof.Machine
end

