-- ==== Sys2Proof/Machine/ByteChannel.lean ====
section
/-! DEFINITION. The Byte Channel requests (40_channel R102, R104..R107). -/

namespace Sys2Proof.Machine

/-- `PUSH ch, b` (R102). -/
def execPush (ch : Chan) (b : Byte) (s : State) : Host.Outcome State Fault Refusal :=
  asRole (producerRole ch) s fun s =>
    if (s.chan ch).count < Config.cap s.cfg ch then
      respond ((s.putByte ch b).signalWrite ch) 1 []
    else
      respond (s.meets (.pushFull ch)) 0 []

/-- `POPB rx` (R104). -/
def execPopb (s : State) : Host.Outcome State Fault Refusal :=
  taskOnly s fun s =>
    asRole .rxConsumer s fun s =>
      if 0 < s.rx.count then
        let r := s.take .rx 1
        respond r.2 ((s.rx.head (Config.freeByte s.draws)).setWidth 32) r.1
      else
        holdOn s .rx

/-- `POPNB ch, N` (R105). -/
def execPopnb (ch : Chan) (n : Nat) (s : State) : Host.Outcome State Fault Refusal :=
  asRole (consumerRole ch) s fun s =>
    let k := min (s.chan ch).count n
    let f0 := s.freeOf ch
    let r := s.take ch k
    respond (r.2.signalRemoval ch f0 (f0 + k)) (resultOf k) r.1

/-- `FREE ch` (R106). -/
def execFree (ch : Chan) (s : State) : Host.Outcome State Fault Refusal :=
  respond s (resultOf (s.freeOf ch)) []

/-- `AVAIL ch` (R107). -/
def execAvail (ch : Chan) (s : State) : Host.Outcome State Fault Refusal :=
  respond s (resultOf (s.chan ch).count) []

end Sys2Proof.Machine
end

