-- ==== Sys2Proof/Machine/Decoder.lean ====
section
/-! DEFINITION. The Protocol Decoder (42_decoder R150..R160): one arm per decoder state, the publish of
43_snapshot R180, and `FEED`. -/

namespace Sys2Proof.Machine

/-- AwaitSync1 (R153). -/
def feedAwaitSync1 (b : Byte) (s : State) : State :=
  if b = sync1 then { s with sum := b.setWidth 16, dstate := .awaitSync2 }
  else s.meets (.framingError b)

/-- AwaitSync2 (R154): a mismatching byte is consumed, not looked at again. -/
def feedAwaitSync2 (b : Byte) (s : State) : State :=
  let s := { s with sum := s.sum + b.setWidth 16 }
  if b = sync2 then { s with idx := 0, dstate := .readingBody }
  else { s with dstate := .awaitSync1 }.meets (.framingError b)

/-- ReadingBody (R155), for `idx` below 256. -/
def feedReadingBody (b : Byte) (s : State) : State :=
  { s with
    sum := s.sum + b.setWidth 16
    memS := Memory.write s.memS s.idx.toNat b
    idx := s.idx + 1
    dstate := if s.idx + 1 = 256#9 then .readingStatus else .readingBody }

/-- ReadingStatus (R156). -/
def feedReadingStatus (b : Byte) (s : State) : State :=
  { s with sum := s.sum + b.setWidth 16, idx := 0, dstate := .readingAnalog }

/-- The word ReadingAnalog writes at `adc_s[j]` (R157): the low byte starts it, the high byte is added. -/
def analogWord (b : Byte) (s : State) (j : Nat) : Half :=
  if s.idx.getLsbD 0 = false then b.setWidth 16
  else s.halfAt s.adcS j + (b.setWidth 16 <<< 8)

/-- ReadingAnalog (R157); `j = idx[3:1]`. -/
def feedReadingAnalog (b : Byte) (s : State) : State :=
  let j := (s.idx.extractLsb' 1 3).toNat
  { s with
    sum := s.sum + b.setWidth 16
    adcS := Memory.write s.adcS j (analogWord b s j)
    idx := s.idx + 1
    dstate := if s.idx + 1 = 16#9 then .awaitChecksumHi else .readingAnalog }

/-- AwaitChecksumHi (R158). -/
def feedAwaitChecksumHi (b : Byte) (s : State) : State :=
  { s with
    sum := s.sum + b.setWidth 16 - b.setWidth 16 - (b.setWidth 16 <<< 8)
    dstate := .awaitChecksumLo }

/-- Publish (43_snapshot R180), with the flags and the counter of R159. A staging cell never written leaves
the snapshot's cell without a known value. -/
def publish (s : State) : State :=
  { s with
    memP := s.memS
    adcP := s.adcS
    updated := true
    connected := true
    nGood := bump s.cfg s.nGood }

/-- AwaitChecksumLo (R159). -/
def feedAwaitChecksumLo (b : Byte) (s : State) : State :=
  let s := { s with sum := s.sum + b.setWidth 16 - b.setWidth 16 }
  let t :=
    if s.sum = b.setWidth 16 then publish s
    else { s with nBad := bump s.cfg s.nBad }.meets (.checksumFailure s.sum b)
  { t with dstate := .awaitSync1 }

/-- Unrecognized state (R160). -/
def feedUnrecognized (b : Byte) (s : State) : State :=
  { s with dstate := .awaitSync1 }.meets (.stateRecovery b)

/-- The arm `dstate` selects (R150). -/
def feedArm (b : Byte) (s : State) : State :=
  match s.dstate with
  | .awaitSync1 => feedAwaitSync1 b s
  | .awaitSync2 => feedAwaitSync2 b s
  | .readingBody => feedReadingBody b s
  | .readingStatus => feedReadingStatus b s
  | .readingAnalog => feedReadingAnalog b s
  | .awaitChecksumHi => feedAwaitChecksumHi b s
  | .awaitChecksumLo => feedAwaitChecksumLo b s
  | .unrecognized => feedUnrecognized b s

/-- Whether the decoder is to store a body byte at an index `mem_s` does not have (log 10). -/
def badStagingIndex (s : State) : Bool :=
  decide (s.dstate = .readingBody) && decide (bodyLen ≤ s.idx.toNat)

/-- `FEED b` (R150, R152). -/
def execFeed (b : Byte) (s : State) : Host.Outcome State Fault Refusal :=
  asRole .decoderFeeder s fun s =>
    if badStagingIndex s = true then .fault (.stagingIndex s.idx)
    else respond (feedArm b { s with nBytes := bump s.cfg s.nBytes }) 0 []

end Sys2Proof.Machine
end

