-- ==== Sys2Proof/Machine/SerialPort.lean ====
section
/-! DEFINITION. The Serial Port Adapter requests (41_port R121, R123..R126, R128, R129). -/

namespace Sys2Proof.Machine

/-- Copy the next chunk of a `WRITE` into TX: `k = min(free(TX), N - done)` bytes, then `TxStart` (R121,
R127). The port keeps the progress. -/
def State.writeChunk (s : State) (n : Nat) : State :=
  let k := min (s.freeOf .tx) (n - s.port.done)
  { s with
    tx := s.tx.putAll s.cfg.cTx (s.port.rest.take k)
    port := { s.port with done := s.port.done + k, rest := s.port.rest.drop k }
    history := s.history ++ [.txStart] }

/-- One step of `WRITE`, from its point P (R121). -/
def writeStep (n : Nat) (s : State) : Host.Outcome State Fault Refusal :=
  if s.port.done = n then respond s (resultOf n) []
  else if 0 < s.freeOf .tx then
    if (s.writeChunk n).port.done = n then respond (s.writeChunk n) (resultOf n) []
    else stayInFlight (s.writeChunk n)
  else holdOn s .tx

/-- `WRITE [data]` with `N = n` (R121). -/
def execWrite (n : Nat) (s : State) : Host.Outcome State Fault Refusal :=
  taskOnly s fun s => asRole .txProducer s fun s => withData n s fun s => writeStep n s

/-- One step of `READ`, from its point P (R123). -/
def readStep (wait : Bool) (n : Nat) (s : State) : Host.Outcome State Fault Refusal :=
  if 1 ≤ s.rx.count then
    let k := min s.rx.count n
    let r := s.take .rx k
    respond r.2 (resultOf k) r.1
  else if wait = false then respond s 0 []
  else holdOn s .rx

/-- `READ wait|nowait, N` (R123); only the waiting form is barred from interrupt context (R226). -/
def execRead (wait : Bool) (n : Nat) (s : State) : Host.Outcome State Fault Refusal :=
  match wait with
  | true => taskOnly s fun s => asRole .rxConsumer s fun s => readStep true n s
  | false => asRole .rxConsumer s fun s => readStep false n s

/-- `WSPACE` (R124). -/
def execWspace (s : State) : Host.Outcome State Fault Refusal :=
  respond s (resultOf (s.freeOf .tx)) []

/-- `RAVAIL` (R125). -/
def execRavail (s : State) : Host.Outcome State Fault Refusal :=
  respond s (resultOf s.rx.count) []

/-- `RXBYTE b` (R126): drop the newest byte when RX is full (R130). -/
def execRxbyte (b : Byte) (s : State) : Host.Outcome State Fault Refusal :=
  asRole .rxProducer s fun s =>
    if s.rx.count < s.cfg.cRx then
      respond ((s.putByte .rx b).signalWrite .rx) 1 []
    else
      respond ({ s with rxLost := bump s.cfg s.rxLost }.meets (.rxOverflow b)) 0 []

/-- `TXREADY` (R128): bit 8 of the result is the valid flag, bits 7:0 the byte. -/
def execTxready (s : State) : Host.Outcome State Fault Refusal :=
  asRole .txConsumer s fun s =>
    if 0 < s.tx.count then
      let f0 := s.freeOf .tx
      let b := s.tx.head (Config.freeByte s.draws)
      respond ((s.take .tx 1).2.txHyst f0 (f0 + 1)) (0x100#32 ||| b.setWidth 32) []
    else
      respond s 0 []

/-- `RXLOST` (R129). -/
def execRxlost (s : State) : Host.Outcome State Fault Refusal :=
  respond s (resultOf s.rxLost) []

end Sys2Proof.Machine
end

