-- ==== Sys2Proof/Machine/Snapshot.lean ====
section
/-! DEFINITION. The snapshot and decoder-status requests (43_snapshot R181..R187). -/

namespace Sys2Proof.Machine

/-- `WASUPD` (R181): return `updated` and clear it. -/
def execWasupd (s : State) : Host.Outcome State Fault Refusal :=
  asRole .updateConsumer s fun s => respond { s with updated := false } (boolResult s.updated) []

/-- `NBYTES` (R182). -/
def execNbytes (s : State) : Host.Outcome State Fault Refusal :=
  respond s (resultOf s.nBytes) []

/-- `NGOOD` (R183). -/
def execNgood (s : State) : Host.Outcome State Fault Refusal :=
  respond s (resultOf s.nGood) []

/-- `NBAD` (R184). -/
def execNbad (s : State) : Host.Outcome State Fault Refusal :=
  respond s (resultOf s.nBad) []

/-- `CONN` (R185). -/
def execConn (s : State) : Host.Outcome State Fault Refusal :=
  respond s (boolResult s.connected) []

/-- `MEM a` (R186). -/
def execMem (a : Nat) (s : State) : Host.Outcome State Fault Refusal :=
  respond s ((s.mem a).setWidth 32) []

/-- `ADC i` (R187). -/
def execAdc (i : Nat) (s : State) : Host.Outcome State Fault Refusal :=
  respond s ((s.adc i).setWidth 32) []

end Sys2Proof.Machine
end

