-- ==== Sys2Proof/Machine/View.lean ====
section
/-! DEFINITION. The Sensor/Diagnostics View (44_view R200..R210). Each formula is the exact integer rule the
spec gives; the values are natural numbers until the result. -/

namespace Sys2Proof.Machine

/-- Engine speed from `mem_p[0xF3]` (R201). -/
def engineSpeed (m : Nat) : Nat := m * 31 + m / 4

/-- Oil pressure from `adc_p[2]` (R203). -/
def oilPressure (c : Nat) : Nat :=
  if c < 102 then 0 else if 921 < c then 100 else ((c - 102) * 125 + 512) / 1024

/-- Water temperature from `mem_p[0xE3]` (R204). -/
def waterTemperature (m : Nat) : Nat :=
  if 3 * m < 160 then 0 else (3 * m - 160 + 2) / 4

/-- Air-fuel ratio times ten from `adc_p[1]` (R206). -/
def airFuelRatio (c : Nat) : Nat := 96 + (c * 25 + 128) / 256

/-- The code numbers of the set bits of one trouble-code byte, whose bit 0 has number `base`. -/
def codesOfByte (base : Nat) (b : Byte) : List Nat :=
  (List.range 8).filterMap fun q => if b.getLsbD q = true then some (base + q) else none

/-- The active trouble codes, ascending: `mem_p[0x12]` bit 0 first, `mem_p[0x14]` bit 7 last (R209). -/
def activeCodes (b12 b13 b14 : Byte) : List Nat :=
  codesOfByte 0 b12 ++ codesOfByte 8 b13 ++ codesOfByte 16 b14

/-- The result of `DTC k` (R209): the k-th active code, or 0xFFFF. -/
def troubleCode (active : List Nat) (k : Nat) : Nat := active.getD k 0xFFFF

/-- The label the source returns for a result of `DTC` (R209): `DTC_LABEL` of a code, or `DTC_NONE_LABEL`.
The block returns the number; the labels are a parameter of the instance (00_scope R7). -/
def troubleLabel (cfg : Config) (result : Nat) : List Char :=
  if h : result < 24 then (cfg.labelOf ⟨result, h⟩).toList else Config.dtcNoneLabel.toList

/-- `ENGSPD` (R201). -/
def execEngspd (s : State) : Host.Outcome State Fault Refusal :=
  respond s (resultOf (engineSpeed (s.mem 0xF3).toNat)) []

/-- `GNDSPD` (R202). -/
def execGndspd (s : State) : Host.Outcome State Fault Refusal :=
  respond s (resultOf (s.mem 0x34).toNat) []

/-- `OILP` (R203). -/
def execOilp (s : State) : Host.Outcome State Fault Refusal :=
  respond s (resultOf (oilPressure (s.adc 2).toNat)) []

/-- `WTEMP` (R204). -/
def execWtemp (s : State) : Host.Outcome State Fault Refusal :=
  respond s (resultOf (waterTemperature (s.mem 0xE3).toNat)) []

/-- `VOLT` (R205). -/
def execVolt (s : State) : Host.Outcome State Fault Refusal :=
  respond s (resultOf (s.mem 0x45).toNat) []

/-- `AFR` (R206). -/
def execAfr (s : State) : Host.Outcome State Fault Refusal :=
  respond s (resultOf (airFuelRatio (s.adc 1).toNat)) []

/-- `SES` (R207): bit 0 of `mem_p[0x0B]`. -/
def execSes (s : State) : Host.Outcome State Fault Refusal :=
  respond s (boolResult ((s.mem 0x0B).getLsbD 0)) []

/-- `RUN` (R208): bit 7 of `mem_p[0x01]`. -/
def execRun (s : State) : Host.Outcome State Fault Refusal :=
  respond s (boolResult ((s.mem 0x01).getLsbD 7)) []

/-- `DTC k` (R209). -/
def execDtc (k : Nat) (s : State) : Host.Outcome State Fault Refusal :=
  respond s (resultOf (troubleCode (activeCodes (s.mem 0x12) (s.mem 0x13) (s.mem 0x14)) k)) []

end Sys2Proof.Machine
end

