-- ==== Sys2Proof/Machine/Dispatch.lean ====
section
/-! DEFINITION. One arm per request: the step of the request at the port (R222: the word is decoded). -/

namespace Sys2Proof.Machine

def exec (i : Instr) (s : State) : Host.Outcome State Fault Refusal :=
  match i with
  | .push ch b => Sys2Proof.Machine.execPush ch b s
  | .popb => Sys2Proof.Machine.execPopb s
  | .popnb ch n => Sys2Proof.Machine.execPopnb ch n s
  | .free ch => Sys2Proof.Machine.execFree ch s
  | .avail ch => Sys2Proof.Machine.execAvail ch s
  | .write n => Sys2Proof.Machine.execWrite n s
  | .read wait n => Sys2Proof.Machine.execRead wait n s
  | .wspace => Sys2Proof.Machine.execWspace s
  | .ravail => Sys2Proof.Machine.execRavail s
  | .rxbyte b => Sys2Proof.Machine.execRxbyte b s
  | .txready => Sys2Proof.Machine.execTxready s
  | .rxlost => Sys2Proof.Machine.execRxlost s
  | .feed b => Sys2Proof.Machine.execFeed b s
  | .wasupd => Sys2Proof.Machine.execWasupd s
  | .nbytes => Sys2Proof.Machine.execNbytes s
  | .ngood => Sys2Proof.Machine.execNgood s
  | .nbad => Sys2Proof.Machine.execNbad s
  | .conn => Sys2Proof.Machine.execConn s
  | .mem a => Sys2Proof.Machine.execMem a s
  | .adc j => Sys2Proof.Machine.execAdc j s
  | .engspd => Sys2Proof.Machine.execEngspd s
  | .gndspd => Sys2Proof.Machine.execGndspd s
  | .oilp => Sys2Proof.Machine.execOilp s
  | .wtemp => Sys2Proof.Machine.execWtemp s
  | .volt => Sys2Proof.Machine.execVolt s
  | .afr => Sys2Proof.Machine.execAfr s
  | .ses => Sys2Proof.Machine.execSes s
  | .run => Sys2Proof.Machine.execRun s
  | .dtc k => Sys2Proof.Machine.execDtc k s

end Sys2Proof.Machine
end

