-- ==== Sys2Proof/Machine/Sched.lean ====
section
/-! DEFINITION. How a step of the block comes about (00_scope R12, R13; 40_channel R103; 60_exceptions R222,
R228; 70_reset R250): the schedule names an agent or reset; the agent's step issues its next request, or
continues the one it has in flight. -/

namespace Sys2Proof.Machine

/-- Decode the word at the port and perform the request (R222); an illegal word is answered ILLEGAL (R76). -/
def perform (s : State) : Host.Outcome State Fault Refusal :=
  match decode s.port.word with
  | .error _ => raiseIllegal s
  | .ok i => exec i s

/-- Agent `a` issues the request `q`, the first of its program; `later` is what it issues afterwards. -/
def State.issue (s : State) (a : Agent) (q : Request) (later : List Request) : State :=
  { s with
    programs := s.programs.set a later
    port := { agent := a, word := q.word, done := 0, rest := q.data }
    history := s.history ++ [.request a q.word q.data] }

/-- Agent `a`'s unfinished request is at the port again. -/
def State.reenter (s : State) (a : Agent) (k : Continuation) : State :=
  { s with port := { agent := a, word := k.word, done := k.done, rest := k.rest } }

/-- A held request resumes (R103): the Resume is recorded and `ch.wake` is cleared. -/
def State.resumed (s : State) (a : Agent) (ch : Chan) : State :=
  (s.clearWake ch).emit (.resume a ch)

/-- The state in which agent `a`'s next step performs a request, if that step is enabled (R12, R103): the agent
has no request in flight and issues the first of its program; or it has a `WRITE` in flight, which is at the
port again; or it has a held request whose wake flag is 1, which resumes. -/
def State.atPort (s : State) (a : Agent) : Option State :=
  match s.conts.get a with
  | none =>
    match s.programs.get a with
    | [] => none
    | q :: later => some (s.issue a q later)
  | some k =>
    match k.waiting with
    | none => some (s.reenter a k)
    | some ch => if (s.chan ch).wake = true then some ((s.resumed a ch).reenter a k) else none

/-- Whether agent `a` has an enabled step (R12). -/
def State.enabled (s : State) (a : Agent) : Bool := (s.atPort a).isSome

/-- The step of agent `a`. With no enabled step, nothing happens (log 2). -/
def agentStep (a : Agent) (s : State) : Host.Outcome State Fault Refusal :=
  match s.atPort a with
  | none => .next s
  | some u => perform u

/-- One step: the next entry of the schedule (R228, R250). With an empty schedule nothing happens (log 2). An
instance whose parameters are not legal is rejected (R131, R262; log 3). -/
def nextStep (s : State) : Host.Outcome State Fault Refusal :=
  if s.cfg.Legal then
    match s.schedule with
    | [] => .next s
    | .reset :: later => .next (resetBlock { s with schedule := later })
    | .agent a :: later => agentStep a { s with schedule := later }
  else .refused .illegalConfiguration

/-- The data list that goes with a word placed by the host: `N` zero bytes for a `WRITE` (R75), none
otherwise (log 18). -/
def placedData (w : Word) : List Byte :=
  match decode w with
  | .ok (.write n) => List.replicate n 0
  | _ => []

/-- The state in which agent RXT, with no request in flight, is the next to step and issues the word `w`
(log 18). -/
def placeRequest (s : State) (w : Word) : State :=
  { s with
    conts := s.conts.set .rxt none
    programs := s.programs.set .rxt ({ word := w, data := placedData w } :: s.programs.get .rxt)
    schedule := .agent .rxt :: s.schedule }

end Sys2Proof.Machine
end

