-- ==== Sys2Proof/Machine/Step.lean ====
section
/-! DEFINITION. The step of the machine, and the host's way to place a request where the next step takes it. -/

namespace Sys2Proof.Machine

/-- One step of the machine. -/
def step (s : State) : Host.Outcome State Fault Refusal := nextStep s

/-- `s` with the request word `w` of `nbits` bits (the bits above are 0) placed so that the next step issues
and performs it. The block fetches nothing (10_state R21): an agent issues the word. -/
def State.withFetchWord (s : State) (nbits w : Nat) : State :=
  placeRequest s (BitVec.ofNat 32 (w % 2 ^ nbits))

end Sys2Proof.Machine
end

