-- ==== Sys2Proof/Machine/Assembly.lean ====
section
/-! DEFINITION. The spec's assembly syntax (30_encoding R80) as a function from a line's characters to the
request it spells, and the pseudo-instructions of R81 as the requests they expand to. No step of the machine
uses it. -/

namespace Sys2Proof.Machine

/-- A request with no data list. -/
def plainRequest (i : Instr) : Request := { word := encode i, data := [] }

/-- `write [data]` (R80). -/
def writeRequest (data : List Byte) : Request := { word := encode (.write data.length), data := data }

/-! ### Pseudo-instructions (R81) -/

/-- The pseudo-instructions. `pump` is given the byte its POPB returned; `frame` the bytes of the frame. -/
inductive Pseudo where
  | poll (n : Nat)
  | recv (n : Nat)
  | pump (returned : Byte)
  | sendb (b : Byte)
  | frame (bytes : List Byte)
deriving DecidableEq, Repr

/-- The request word of `i`, if its operands lie in their fields (R73). -/
def checkedRequest (i : Instr) : Option Request :=
  if i.wellFormed = true then some (plainRequest i) else none

/-- The requests a pseudo-instruction stands for, in the order one agent issues them (R81). R81 says nothing of
a `poll` or `recv` with `N` above 65535, nor of a `frame` that is not the 277 bytes it names; that these stand
for no requests is the model's choice (DESIGN CHOICE, log 23). -/
def expandPseudo : Pseudo → Option (List Request)
  | .poll n => (checkedRequest (.read false n)).map fun q => [q]
  | .recv n => (checkedRequest (.read true n)).map fun q => [q]
  | .pump b => some [plainRequest .popb, plainRequest (.feed b)]
  | .sendb b => some [writeRequest [b]]
  | .frame bytes =>
    if bytes.length = frameLen then some (bytes.map fun b => plainRequest (.feed b)) else none

/-! ### Lines (R80) -/

/-- Put a finished word, collected in reverse, before the words that follow. -/
def flushWord (rev : List Char) (later : List (List Char)) : List (List Char) :=
  if rev = [] then later else rev.reverse :: later

/-- The words of a line: blanks and commas separate, brackets and colons stand alone, and a semicolon starts
a comment. `rev` is the word being read, in reverse. -/
def lineWords (rev : List Char) : List Char → List (List Char)
  | [] => flushWord rev []
  | c :: cs =>
    if c = ';' then flushWord rev []
    else if c = ' ' ∨ c = ',' ∨ c = '\t' then flushWord rev (lineWords [] cs)
    else if c = '[' ∨ c = ']' ∨ c = ':' then flushWord rev ([c] :: lineWords [] cs)
    else lineWords (c :: rev) cs

/-- The value of a digit in a base. -/
def digitValue (base : Nat) (c : Char) : Option Nat :=
  let v :=
    if '0' ≤ c ∧ c ≤ '9' then c.toNat - '0'.toNat
    else if 'a' ≤ c ∧ c ≤ 'f' then c.toNat - 'a'.toNat + 10
    else if 'A' ≤ c ∧ c ≤ 'F' then c.toNat - 'A'.toNat + 10
    else base
  if v < base then some v else none

/-- The value of a run of digits after the value `acc`. -/
def digitsValue (base : Nat) : Nat → List Char → Option Nat
  | acc, [] => some acc
  | acc, c :: cs => (digitValue base c).bind fun v => digitsValue base (acc * base + v) cs

/-- A number, decimal or `0x` hexadecimal (R80). -/
def numberValue : List Char → Option Nat
  | [] => none
  | '0' :: 'x' :: c :: cs => digitsValue 16 0 (c :: cs)
  | c :: cs => digitsValue 10 0 (c :: cs)

/-- A byte operand. -/
def byteValue (w : List Char) : Option Byte :=
  (numberValue w).bind fun n => if n < 256 then some (BitVec.ofNat 8 n) else none

/-- A channel operand. -/
def chanName (w : List Char) : Option Chan :=
  if w = "rx".toList then some .rx else if w = "tx".toList then some .tx else none

/-- The wait operand of `read`. -/
def waitName (w : List Char) : Option Bool :=
  if w = "wait".toList then some true else if w = "nowait".toList then some false else none

/-- The agent prefixes. -/
def agentName (w : List Char) : Option Agent :=
  if w = "RXI".toList then some .rxi
  else if w = "TXI".toList then some .txi
  else if w = "RXT".toList then some .rxt
  else if w = "TXT".toList then some .txt
  else if w = "UI".toList then some .ui
  else none

/-- The requests with no operand. -/
def bareOp (w : List Char) : Option Instr :=
  ([("wspace", .wspace), ("ravail", .ravail), ("txready", .txready), ("rxlost", .rxlost),
    ("wasupd", .wasupd), ("nbytes", .nbytes), ("ngood", .ngood), ("nbad", .nbad), ("conn", .conn),
    ("engspd", .engspd), ("gndspd", .gndspd), ("oilp", .oilp), ("wtemp", .wtemp), ("volt", .volt),
    ("afr", .afr), ("ses", .ses), ("run", .run)].find? fun (p : String × Instr) =>
      decide (p.1.toList = w)).map Prod.snd

/-- The requests with one operand. -/
def unaryOp (w x : List Char) : Option Instr :=
  if w = "popb".toList then if x = "rx".toList then some .popb else none
  else if w = "free".toList then (chanName x).map .free
  else if w = "avail".toList then (chanName x).map .avail
  else if w = "rxbyte".toList then (byteValue x).map .rxbyte
  else if w = "feed".toList then (byteValue x).map .feed
  else if w = "mem".toList then (numberValue x).map .mem
  else if w = "adc".toList then (numberValue x).map .adc
  else if w = "dtc".toList then (numberValue x).map .dtc
  else none

/-- The requests with two operands. -/
def binaryOp (w x y : List Char) : Option Instr :=
  if w = "push".toList then (chanName x).bind fun ch => (byteValue y).map (.push ch)
  else if w = "popnb".toList then (chanName x).bind fun ch => (numberValue y).map (.popnb ch)
  else if w = "read".toList then (waitName x).bind fun b => (numberValue y).map (.read b)
  else none

/-- The bytes of a `write` list, up to its closing bracket. -/
def listBytes : List (List Char) → Option (List Byte)
  | [] => none
  | [w] => if w = [']'] then some [] else none
  | w :: ws => (byteValue w).bind fun b => (listBytes ws).map (b :: ·)

/-- The request the words of a line spell; operands outside their field spell none (R73). -/
def requestOfWords (ws : List (List Char)) : Option Request :=
  match ws with
  | [w] => (bareOp w).bind checkedRequest
  | [w, x] => (unaryOp w x).bind checkedRequest
  | w :: ['['] :: rest =>
    if w = "write".toList then
      (listBytes rest).bind fun bs => if bs.length < 2 ^ 16 then some (writeRequest bs) else none
    else none
  | [w, x, y] => (binaryOp w x y).bind checkedRequest
  | _ => none

/-- A line of assembly: the issuing agent, if it is named, and the request (R80). -/
def assembleLine (line : List Char) : Option (Option Agent × Request) :=
  match lineWords [] line with
  | a :: [':'] :: rest =>
    (agentName a).bind fun ag => (requestOfWords rest).map fun q => (some ag, q)
  | ws => (requestOfWords ws).map fun q => (none, q)

end Sys2Proof.Machine
end

