-- ==== Sys2Proof/Safety.lean ====
section
/-! DEFINITION. The terms the claims are stated in: the contents of a channel (10_state R25), the invariant of
the machine, runs, the bytes the event history says went through a channel (20_memory R62), and the host's
duty (60_exceptions R235). -/

namespace Sys2Proof.Machine

/-! ### Channels -/

/-- The valid bytes of a channel of capacity `cap`, oldest first (R25): `ch.buf[(ch.rd + i) mod C_ch]` for
`i = 0 .. ch.count-1`; `none` stands for a cell no step has written. -/
def Channel.contents (cap : Nat) (c : Channel) : List (Option Byte) :=
  (List.range c.count).map fun i => Memory.read? c.buf ((c.rd + i) % cap)

/-- The invariant of a channel (R25), with the cursors in their range (R23), the backing storage in canonical
form, and every valid byte written. -/
abbrev Channel.Ok (cap : Nat) (c : Channel) : Prop :=
  c.count ≤ cap ∧ c.rd < cap ∧ c.wr = (c.rd + c.count) % cap ∧ Memory.wf cap c.buf ∧
    ∀ i < c.count, (Memory.read? c.buf ((c.rd + i) % cap)).isSome = true

/-! ### The decoder and the snapshot -/

/-- Every index below `n` has been written. -/
abbrev Memory.WrittenBelow {w : Nat} (m : Memory w) (n : Nat) : Prop :=
  ∀ a < n, (Memory.read? m a).isSome = true

/-- How many body bytes of the frame under way have been stored for sure (R155). -/
def State.bodyStored (s : State) : Nat :=
  match s.dstate with
  | .readingBody => s.idx.toNat
  | .readingStatus | .readingAnalog | .awaitChecksumHi | .awaitChecksumLo => bodyLen
  | .awaitSync1 | .awaitSync2 | .unrecognized => 0

/-- How many analog words of the frame under way have been started (R157). -/
def State.analogStarted (s : State) : Nat :=
  match s.dstate with
  | .readingAnalog => (s.idx.toNat + 1) / 2
  | .awaitChecksumHi | .awaitChecksumLo => adcN
  | .awaitSync1 | .awaitSync2 | .readingBody | .readingStatus | .unrecognized => 0

/-- The decoder is where the rules can bring it: a state R27 names, `idx` in the range of the field being read
(R28, R155, R157), and what has been read of the frame stored. -/
abbrev State.DecoderOk (s : State) : Prop :=
  s.dstate ≠ .unrecognized ∧
  (s.dstate = .readingBody → s.idx.toNat < bodyLen) ∧
  (s.dstate = .readingAnalog → s.idx.toNat < 2 * adcN) ∧
  Memory.wf bodyLen s.memS ∧ Memory.wf adcN s.adcS ∧
  Memory.WrittenBelow s.memS s.bodyStored ∧ Memory.WrittenBelow s.adcS s.analogStarted

/-- The Packet Snapshot holds a whole frame once one has been published (R33, R180), and `updated` is 1 only
after a publish (R32). -/
abbrev State.SnapshotOk (s : State) : Prop :=
  Memory.wf bodyLen s.memP ∧ Memory.wf adcN s.adcP ∧
  (s.connected = true → Memory.WrittenBelow s.memP bodyLen ∧ Memory.WrittenBelow s.adcP adcN) ∧
  (s.updated = true → s.connected = true)

/-- Every diagnostic counter fits its `CNT_W` bits (R26, R34). -/
abbrev State.CountersOk (s : State) : Prop :=
  s.rxLost < 2 ^ s.cfg.cntW ∧ s.nBytes < 2 ^ s.cfg.cntW ∧ s.nGood < 2 ^ s.cfg.cntW ∧
    s.nBad < 2 ^ s.cfg.cntW

/-! ### Continuations -/

/-- Agent `a`'s continuation, if it has one, is that of a request that can hold, issued from task context, in
a role the agent holds (R37, R226, R227): a `POPB` or a waiting `READ` held on RX, or a `WRITE` held on TX or
in flight with bytes still to copy. -/
def State.contOk (s : State) (a : Agent) : Bool :=
  match s.conts.get a with
  | none => true
  | some k =>
    !a.isInterrupt &&
    match decode k.word with
    | .ok .popb => decide (k.waiting = some .rx) && decide (s.roles.rxConsumer = some a)
    | .ok (.read true _) => decide (k.waiting = some .rx) && decide (s.roles.rxConsumer = some a)
    | .ok (.write n) =>
      decide (k.waiting ≠ some .rx) && decide (s.roles.txProducer = some a) &&
        decide (k.done + k.rest.length = n) && decide (k.rest ≠ [])
    | _ => false

/-- Every agent's continuation is as `State.contOk` says. -/
abbrev State.AgentsOk (s : State) : Prop :=
  s.contOk .rxi = true ∧ s.contOk .txi = true ∧ s.contOk .rxt = true ∧ s.contOk .txt = true ∧
    s.contOk .ui = true

/-! ### The invariant -/

/-- The invariant of the machine: legal parameters (00_scope R7), both channels as R25 says, the counters in
range, the decoder and the snapshot in order, and every continuation that of a request that can hold. -/
abbrev State.Inv (s : State) : Prop :=
  s.cfg.Legal ∧ s.rx.Ok s.cfg.cRx ∧ s.tx.Ok s.cfg.cTx ∧ s.CountersOk ∧ s.DecoderOk ∧ s.SnapshotOk ∧
    s.AgentsOk

/-- Agent `a` is held on the wake flag of `ch` (R103). -/
def State.heldOn (s : State) (a : Agent) (ch : Chan) : Prop :=
  ∃ k, s.conts.get a = some k ∧ k.waiting = some ch

/-- No wake is lost (R103): a request held on RX while RX holds a byte finds `RX.wake` set, and a `WRITE` held
on TX while the free space is `TX_HYST` or more finds `TX.wake` set. -/
def State.NoLostWake (s : State) : Prop :=
  ∀ a, (s.heldOn a .rx → 0 < s.rx.count → s.rx.wake = true) ∧
    (s.heldOn a .tx → s.cfg.txHyst ≤ s.freeOf .tx → s.tx.wake = true)

/-! ### Roles -/

/-- The role a request uses, if it uses one (60_exceptions R227). -/
def roleOf : Instr → Option Role
  | .push ch _ => some (producerRole ch)
  | .rxbyte _ => some .rxProducer
  | .popb => some .rxConsumer
  | .popnb ch _ => some (consumerRole ch)
  | .read _ _ => some .rxConsumer
  | .write _ => some .txProducer
  | .txready => some .txConsumer
  | .feed _ => some .decoderFeeder
  | .wasupd => some .updateConsumer
  | .free _ | .avail _ | .wspace | .ravail | .rxlost | .nbytes | .ngood | .nbad | .conn | .mem _
  | .adc _ | .engspd | .gndspd | .oilp | .wtemp | .volt | .afr | .ses | .run | .dtc _ => none

/-- The agent at the port may use the role: nobody holds it, or that agent does (R227). -/
abbrev State.mayUse (s : State) (r : Role) : Prop :=
  s.roles.get r = none ∨ s.roles.get r = some s.port.agent

/-! ### Where a step leaves the state

These say what a step leaves as it was: every field that is not written out is that of `s`. -/

/-- The roles once the agent at the port has used `r` (R227); a request without a role changes none. -/
def State.rolesUsing (s : State) : Option Role → Roles
  | none => s.roles
  | some r => s.roles.give r s.port.agent

/-- `s` once the request at the port, in role `r`, has completed with status OK, the given result and data-out
bytes (R74), with the events `evs` before its response (R14). Nothing else has changed. -/
def State.completed (s : State) (r : Option Role) (evs : List Event) (result : Word) (data : List Byte) :
    State :=
  { s with
    roles := s.rolesUsing r
    conts := s.conts.set s.port.agent none
    history := s.history ++ evs ++
      [.response s.port.agent s.port.word { status := .ok, result := result, data := data }]
    draws := s.draws + 1 }

/-- `s` once the request at the port, in role `r`, is held on `ch` (R103). Nothing else has changed. -/
def State.heldAt (s : State) (r : Role) (ch : Chan) : State :=
  { s with
    roles := s.rolesUsing (some r)
    conts := s.conts.set s.port.agent (some
      { word := s.port.word, done := s.port.done, rest := s.port.rest, waiting := some ch })
    history := s.history ++ [.hold s.port.agent ch]
    draws := s.draws + 1 }

/-- `s` once a `FEED` has completed that counted its byte (R152) and met the conditions `evs`, before what its
arm does. -/
def State.fed (s : State) (evs : List Event) : State :=
  { s.completed (some .decoderFeeder) evs 0 [] with nBytes := (s.nBytes + 1) % 2 ^ s.cfg.cntW }

/-! ### Runs -/

/-- `k` steps lead from `s` to `t`. -/
def runsTo : Nat → State → State → Prop
  | 0, s, t => t = s
  | k + 1, s, t => ∃ u, step s = .next u ∧ runsTo k u t

/-- The steps of a list of requests the agent at the port issues one after the other, each of which completes
or holds in one step; the first fault or refusal ends it. -/
def execAll : List Instr → State → Host.Outcome State Fault Refusal
  | [], s => .next s
  | i :: is, s =>
    match exec i s with
    | .next t => execAll is t
    | .fault f => .fault f
    | .refused r => .refused r

/-! ### What the event history says of a channel (R62) -/

/-- The bytes an event records as written into RX: an accepted `PUSH rx` or `RXBYTE` (R102, R126). -/
def rxInsertedBy : Event → List Byte
  | .response _ w r =>
    match decode w with
    | .ok (.push .rx b) => if r.result = 1 then [b] else []
    | .ok (.rxbyte b) => if r.result = 1 then [b] else []
    | _ => []
  | _ => []

/-- The bytes an event records as removed from RX: the data of a `POPB`, `POPNB rx` or `READ` (R74). -/
def rxRemovedBy : Event → List Byte
  | .response _ w r =>
    match decode w with
    | .ok .popb => r.data
    | .ok (.popnb .rx _) => r.data
    | .ok (.read _ _) => r.data
    | _ => []
  | _ => []

/-- The bytes an event records as offered to TX: an accepted `PUSH tx` (R102), or the data list of a `WRITE`
when it is issued (R75, R121). -/
def txOfferedBy : Event → List Byte
  | .request _ w data =>
    match decode w with
    | .ok (.write _) => data
    | _ => []
  | .response _ w r =>
    match decode w with
    | .ok (.push .tx b) => if r.result = 1 then [b] else []
    | _ => []
  | _ => []

/-- The bytes an event records as removed from TX: the data of a `POPNB tx`, or the byte of a `TXREADY` whose
valid bit is 1 (R128). -/
def txRemovedBy : Event → List Byte
  | .response _ w r =>
    match decode w with
    | .ok (.popnb .tx _) => r.data
    | .ok .txready => if r.result.getLsbD 8 = true then [r.result.truncate 8] else []
    | _ => []
  | _ => []

/-- The bytes a `WRITE` in progress has still to copy (R37): those of the holder of the TX producer role. -/
def State.txPending (s : State) : List Byte :=
  match s.roles.txProducer with
  | none => []
  | some a =>
    match s.conts.get a with
    | none => []
    | some k =>
      match decode k.word with
      | .ok (.write _) => k.rest
      | _ => []

/-- RX is FIFO so far (R62): what the history says went in is what it says came out, then what is there. -/
def State.RxFifo (s : State) : Prop :=
  (s.history.flatMap rxInsertedBy).map some =
    (s.history.flatMap rxRemovedBy).map some ++ s.rx.contents s.cfg.cRx

/-- TX is FIFO so far (R62, R122): what the history says was offered is what it says came out, then what is
there, then what a `WRITE` in progress has still to copy. -/
def State.TxFifo (s : State) : Prop :=
  (s.history.flatMap txOfferedBy).map some =
    (s.history.flatMap txRemovedBy).map some ++ s.tx.contents s.cfg.cTx ++ s.txPending.map some

/-! ### The host's duty (R235) -/

/-- Whether an event starts or stops the transmitter: it runs from a `TxStart` until a `TXREADY` returns
valid 0 (R235). -/
def transmitterAfter (running : Bool) : Event → Bool
  | .txStart => true
  | .response _ w r =>
    match decode w with
    | .ok .txready => running && r.result.getLsbD 8
    | _ => running
  | .request _ _ _ | .hold _ _ | .resume _ _ | .condition _ => running

/-- Whether TXI has the duty to issue a `TXREADY` (R235): the transmitter is running. R235 does not say whether
the duty outlives a reset; that a reset ends it, with the history it is read from, is the model's choice
(DESIGN CHOICE, log 24). -/
def txiOwesTxready (s : State) : Bool := s.history.foldl transmitterAfter false

end Sys2Proof.Machine
end

