-- ==== Sys2Proof/Certificates/Slice0/Obligations.lean ====
section
/-! DEFINITION. The statements for the provers. Each docstring names the rule of spec/ it formalises. "Nothing
else changes" is said by an equation between states: `State.completed`, `State.heldAt` and `State.fed`
(Sys2Proof/Safety.lean) write out the few fields a step changes and keep every other field. Such an equation also
fixes the model's own fields `draws` and `port` (logs 6 and 9). Where it fixes the order of two events of one
step (log 8), or the role that a request without effect claims (log 14), the docstring names the log entry. -/

open Sys2Proof Sys2Proof.Machine

/-! ### Encoding -/

/-- Decode and encode agree on every well-formed request, with every operand at every value its field admits
(R70 to R73). -/
def Obligations.DecodeEncodeRoundTrip : Prop :=
  ∀ i : Instr, i.wellFormed = true → decode (encode i) = .ok i

/-- R79: every 32-bit word is exactly one request with its operands, or illegal. -/
def Obligations.EveryWordIsOneRequestOrIllegal : Prop :=
  ∀ w : Word,
    (∃ i, decode w = .ok i ∧ i.wellFormed = true ∧ encode i = w ∧
      ∀ j : Instr, j.wellFormed = true → encode j = w → j = i) ∨
    (∃ e, decode w = .error e ∧ ∀ j : Instr, j.wellFormed = true → encode j ≠ w)

/-- R72: a word decodes as mnemonic M exactly when `(word AND mask_M) = match_M`, and at most one row of the
table matches any word. -/
def Obligations.DecodeFollowsMatchAndMask : Prop :=
  ∀ w : Word,
    (∀ m op f, (m, op, f) ∈ opcodeTable →
      ((∃ i, decode w = .ok i ∧ i.mnemonic = m) ↔ w &&& f.mask = matchOf op)) ∧
    (∀ m op f m' op' f', (m, op, f) ∈ opcodeTable → (m', op', f') ∈ opcodeTable →
      w &&& f.mask = matchOf op → w &&& f'.mask = matchOf op' → (m, op, f) = (m', op', f'))

/-- A few words of 95_test_vectors 2.1, read as that table reads them. -/
def Obligations.VectorWordsDecode : Prop :=
  decode 0x04000055 = .ok (.push .rx 0x55) ∧
  decode 0x06000041 = .ok (.push .tx 0x41) ∧
  decode 0x08000000 = .ok .popb ∧
  decode 0x0E000010 = .ok (.popnb .tx 16) ∧
  decode 0x20000003 = .ok (.write 3) ∧
  decode 0x25000008 = .ok (.read true 8) ∧
  decode 0x5C000002 = .ok (.adc 2) ∧
  decode 0xA000FFFF = .ok (.dtc 65535) ∧
  decode 0x0A000000 = .error .strayChannel ∧
  decode 0x21000003 = .error .strayWait ∧
  decode 0x04010000 = .error .reservedBits ∧
  decode 0x5C000008 = .error .strayOperand ∧
  decode 0x00000000 = .error (.reservedOp 0)

/-- Every line of assembly that spells a request spells one that the decoder reads back, with its operands in
their fields and its data list of the length its word names (R73, R75, R80). The spellings the assembler takes
beyond the table of R80 are the model's choice (log 23). -/
def Obligations.AssembledLinesDecode : Prop :=
  ∀ (line : List Char) (a : Option Agent) (q : Request), assembleLine line = some (a, q) →
    ∃ i, decode q.word = .ok i ∧ i.wellFormed = true ∧ i.dataFits q.data = true ∧
      encode i = q.word

/-! ### A step -/

/-- A step runs the decoded instruction: an agent with no request in flight issues the first request of its
program, which is recorded, and the block performs what its word decodes to (R12, R14, R21). That the request is
recorded when it is issued, before what performing it records, is the model's reading (log 8). -/
def Obligations.StepPerformsTheDecodedRequest : Prop :=
  ∀ (s : State) (a : Agent) (later : List Choice) (q : Request) (qs : List Request) (i : Instr),
    s.cfg.Legal → s.schedule = .agent a :: later → s.conts.get a = none →
    s.programs.get a = q :: qs → decode q.word = .ok i →
    step s = exec i { s with
      schedule := later
      programs := s.programs.set a qs
      port := { agent := a, word := q.word, done := 0, rest := q.data }
      history := s.history ++ [.request a q.word q.data] }

/-- R76, R221: a word that matches no row of the table is performed in one step, answered (ILLEGAL, 0, []), and
no state of the block changes; code 1 is recorded with the word. The order request, condition, response inside
the step is the model's reading (log 8). -/
def Obligations.IllegalWordChangesNothing : Prop :=
  ∀ (s : State) (a : Agent) (later : List Choice) (q : Request) (qs : List Request),
    s.cfg.Legal → s.schedule = .agent a :: later → s.conts.get a = none →
    s.programs.get a = q :: qs →
    (∀ m op f, (m, op, f) ∈ opcodeTable → q.word &&& f.mask ≠ matchOf op) →
    step s = .next { s with
      schedule := later
      programs := s.programs.set a qs
      port := { agent := a, word := q.word, done := 0, rest := q.data }
      history := s.history ++ [.request a q.word q.data, .condition (.illegalCommand q.word),
        .response a q.word { status := .illegal, result := 0, data := [] }]
      draws := s.draws + 1 }

/-- R103, R121: the one step of an agent with a request in flight. Held on a wake flag that is 1, the step
records the Resume, clears the flag and performs the request again; not held (a `WRITE` between two chunks), the
step performs it again from where it stands. Held on a flag that is 0, R103 says that the step is not enabled:
that the agent's turn then passes with nothing but the schedule changed is the model's choice (log 2). That
"again" means from decoding and the checks on, `exec` whole, is the model's reading of the retry point (log 13).
The Resume stands before what the request records in the same step (log 8). -/
def Obligations.HeldRequestResumesOnItsWake : Prop :=
  ∀ (s : State) (a : Agent) (later : List Choice) (k : Continuation) (i : Instr),
    s.cfg.Legal → s.schedule = .agent a :: later → s.conts.get a = some k →
    decode k.word = .ok i →
    (∀ ch, k.waiting = some ch → (s.chan ch).wake = true →
      step s = exec i (({ s with
        schedule := later
        port := { agent := a, word := k.word, done := k.done, rest := k.rest }
        history := s.history ++ [.resume a ch] } : State).setChan ch
          { s.chan ch with wake := false })) ∧
    (∀ ch, k.waiting = some ch → (s.chan ch).wake = false →
      step s = .next { s with schedule := later }) ∧
    (k.waiting = none →
      step s = exec i { s with
        schedule := later
        port := { agent := a, word := k.word, done := k.done, rest := k.rest } })

/-- An agent's unfinished request is touched by no other agent's step (R37, R230). -/
def Obligations.OtherAgentsKeepTheirRequest : Prop :=
  ∀ (s t : State) (a : Agent) (later : List Choice),
    s.schedule = .agent a :: later → step s = .next t →
    ∀ b, b ≠ a → t.conts.get b = s.conts.get b

/-- R252 and R39: a reset step leaves every agent with no request in flight, no role held, and every element
that R39 gives a value at that value; TX, with what a `WRITE` had queued, is empty. -/
def Obligations.ResetStepGivesTheResetValues : Prop :=
  ∀ (s : State) (later : List Choice), s.cfg.Legal → s.schedule = .reset :: later →
    ∃ t, step s = .next t ∧
      (∀ a, t.conts.get a = none) ∧ (∀ r, t.roles.get r = none) ∧
      t.rx.count = 0 ∧ t.rx.rd = 0 ∧ t.rx.wr = 0 ∧ t.rx.wake = false ∧
      t.tx.count = 0 ∧ t.tx.rd = 0 ∧ t.tx.wr = 0 ∧ t.tx.wake = false ∧
      t.rxLost = 0 ∧ t.dstate.code = 0 ∧ t.updated = false ∧ t.connected = false ∧
      t.nBytes = 0 ∧ t.nGood = 0 ∧ t.nBad = 0

/-- The model's choices about reset (logs 7 and 15; the spec's R36 and R21 say only that no request changes a
parameter and that programs are the agents' own): a reset step keeps the parameters, the agents' programs and
the rest of the schedule, begins the event history anew, and repeats no free draw. -/
def Obligations.ResetKeepsWhatIsOutsideTheBlock : Prop :=
  ∀ (s : State) (later : List Choice), s.cfg.Legal → s.schedule = .reset :: later →
    ∃ t, step s = .next t ∧ t.cfg = s.cfg ∧ t.programs = s.programs ∧ t.schedule = later ∧
      t.history = [] ∧ t.draws = s.draws + 1

/-! ### Invariants -/

/-- The invariant holds right after reset, for every legal choice of the parameters. -/
def Obligations.ResetSatisfiesTheInvariant : Prop :=
  ∀ cfg : Config, cfg.Legal → (State.resetWith cfg).Inv

/-- Every step keeps the invariant, from any state that has it: R25 of both channels, the ranges of R28 and
R34, and what R37, R226 and R227 say of a continuation. -/
def Obligations.EveryStepKeepsTheInvariant : Prop :=
  ∀ s t : State, s.Inv → step s = .next t → t.Inv

/-- No fault is reached from a state of the invariant, and a refusal is one of R221's codes 7, 8 and 9 (R13,
R220, R223), recorded with its agent and word as the last event of the run's history. That the refusal itself
carries that history, since it leaves no next state, is the model's reading (log 8). -/
def Obligations.NoFaultAndOnlyTheSpecsRefusals : Prop :=
  ∀ s : State, s.Inv →
    (∀ f, step s ≠ .fault f) ∧
    (∀ r, step s = .refused r →
      ∃ a w es,
        r = .contextRefused a w (s.history ++ es ++ [.condition (.contextRefused a w)]) ∨
        r = .roleRefused a w (s.history ++ es ++ [.condition (.roleRefused a w)]) ∨
        r = .dataRefused a w (s.history ++ es ++ [.condition (.dataRefused a w)]))

/-- An unfinished request is never refused when it is taken up again: its agent's turn answers a next state. Where
the request is held and its wake flag is 0, that is the turn passed over, the model's choice (log 2). -/
def Obligations.UnfinishedRequestIsNeverRefused : Prop :=
  ∀ (s : State) (a : Agent) (later : List Choice) (k : Continuation),
    s.Inv → s.schedule = .agent a :: later → s.conts.get a = some k → ∃ t, step s = .next t

/-- No step changes a parameter (R36). -/
def Obligations.ParametersNeverChange : Prop :=
  ∀ s t : State, step s = .next t → t.cfg = s.cfg

/-- No wake is lost (R103): a request held on RX while RX holds a byte finds `RX.wake` set, and a `WRITE` held
on TX while the free space has reached `TX_HYST` finds `TX.wake` set; every step keeps this. -/
def Obligations.NoWakeIsLost : Prop :=
  (∀ cfg : Config, (State.resetWith cfg).NoLostWake) ∧
  ∀ s t : State, s.Inv → s.NoLostWake → step s = .next t → t.NoLostWake

/-- RX is strictly FIFO (R62): at every step, the bytes the event history shows written into RX are the bytes
it shows removed from RX followed by the bytes still there. -/
def Obligations.RxChannelIsFifo : Prop :=
  (∀ cfg : Config, (State.resetWith cfg).RxFifo) ∧
  ∀ s t : State, s.Inv → s.RxFifo → step s = .next t → t.RxFifo

/-- TX is strictly FIFO and the bytes of a `WRITE` enter it in list order, contiguously (R62, R122): at every
step, the bytes offered are the bytes removed, then the bytes still there, then what a `WRITE` in progress has
still to copy. That a `WRITE` is recorded, and its bytes so offered, when it is issued is the model's reading
(log 8). -/
def Obligations.TxChannelIsFifo : Prop :=
  (∀ cfg : Config, (State.resetWith cfg).TxFifo) ∧
  ∀ s t : State, s.Inv → s.TxFifo → step s = .next t → t.TxFifo

/-- R33, R251: no step but a reset clears `connected` or brings a counter back: each counter stays or goes one
up modulo `2^CNT_W`. -/
def Obligations.OnlyResetClearsCountersAndConnected : Prop :=
  ∀ s t : State, step s = .next t → s.schedule.head? ≠ some .reset →
    (s.connected = true → t.connected = true) ∧
    (t.nBytes = s.nBytes ∨ t.nBytes = (s.nBytes + 1) % 2 ^ s.cfg.cntW) ∧
    (t.nGood = s.nGood ∨ t.nGood = (s.nGood + 1) % 2 ^ s.cfg.cntW) ∧
    (t.nBad = s.nBad ∨ t.nBad = (s.nBad + 1) % 2 ^ s.cfg.cntW) ∧
    (t.rxLost = s.rxLost ∨ t.rxLost = (s.rxLost + 1) % 2 ^ s.cfg.cntW)

/-- R188: the snapshot and `n_good` change, and `updated` rises, only at a publish, the last byte of a frame
whose checksum matches; `updated` falls only at a `WASUPD`. -/
def Obligations.SnapshotChangesOnlyAtAPublish : Prop :=
  ∀ (i : Instr) (s t : State), exec i s = .next t →
    ((t.memP ≠ s.memP ∨ t.adcP ≠ s.adcP ∨ t.nGood ≠ s.nGood ∨
        (s.updated = false ∧ t.updated = true)) →
      ∃ b, i = .feed b ∧ s.dstate = .awaitChecksumLo ∧ s.sum = b.setWidth 16) ∧
    (s.updated = true → t.updated = false → i = .wasupd)

/-- R24, R35: a request sets `RX.wake` only by writing a byte into RX, sets `TX.wake` only by removing bytes
from TX so that its free space crosses `TX_HYST` (R131), and clears neither. -/
def Obligations.WakeFlagsAreSetOnlyByTheirRules : Prop :=
  ∀ (i : Instr) (s t : State), s.tx.Ok s.cfg.cTx → exec i s = .next t →
    (t.rx.wake ≠ s.rx.wake →
      t.rx.wake = true ∧ (∃ b, i = .push .rx b ∨ i = .rxbyte b) ∧ s.rx.count < s.cfg.cRx) ∧
    (t.tx.wake ≠ s.tx.wake →
      t.tx.wake = true ∧ (i = .txready ∨ ∃ n, i = .popnb .tx n) ∧
        s.cfg.cTx - s.tx.count < s.cfg.txHyst ∧ s.cfg.txHyst ≤ s.cfg.cTx - t.tx.count)

/-! ### The checks before execution -/

/-- R226: a request that can hold, issued by an interrupt-context agent, is refused with code 7, which is
recorded with agent and word (R221; the refusal carries the history, log 8); every other request is allowed from
either context. -/
def Obligations.HoldingRequestsAreRefusedToInterrupts : Prop :=
  ∀ (i : Instr) (s : State),
    (i.canHold = true → s.port.agent.isInterrupt = true →
      exec i s = .refused (.contextRefused s.port.agent s.port.word
        (s.history ++ [.condition (.contextRefused s.port.agent s.port.word)]))) ∧
    ((i.canHold = false ∨ s.port.agent.isInterrupt = false) →
      ∀ a w h, exec i s ≠ .refused (.contextRefused a w h))

/-- R227: the first agent to use a role holds it, a request in a role that another agent holds is refused with
code 8, which is recorded with agent and word (R221; the refusal carries the history, log 8), and a query uses
no role. That a request uses its role in every step that answers a next state, also one that holds, answers 0 or
moves no byte, is the model's reading of "use" (log 14). -/
def Obligations.ARoleBelongsToItsFirstUser : Prop :=
  ∀ (i : Instr) (s : State),
    (∀ r a, roleOf i = some r → s.roles.get r = some a → a ≠ s.port.agent →
      (i.canHold = true → s.port.agent.isInterrupt = false) →
      exec i s = .refused (.roleRefused s.port.agent s.port.word
        (s.history ++ [.condition (.roleRefused s.port.agent s.port.word)]))) ∧
    (∀ t, exec i s = .next t → t.roles = s.rolesUsing (roleOf i)) ∧
    (∀ a w h, exec i s = .refused (.roleRefused a w h) →
      ∃ r b, roleOf i = some r ∧ s.roles.get r = some b ∧ b ≠ s.port.agent)

/-- R75: a `WRITE` whose data list is not exactly `N` bytes long is refused with code 9, which is recorded with
agent and word (R221; the refusal carries the history, log 8). -/
def Obligations.WriteWithTheWrongDataIsRefused : Prop :=
  ∀ (n : Nat) (s : State), s.port.agent.isInterrupt = false → s.mayUse .txProducer →
    s.port.done = 0 → s.port.rest.length ≠ n →
    exec (.write n) s = .refused (.dataRefused s.port.agent s.port.word
      (s.history ++ [.condition (.dataRefused s.port.agent s.port.word)]))

/-! ### The Byte Channel -/

/-- R102: `PUSH` appends its byte when there is room, and on RX sets the wake; on a full channel it answers 0 and
changes nothing, and code 5 is recorded (R221). That the condition stands before the response (log 8) and that a
`PUSH` on a full channel claims its role (log 14) are the model's readings. -/
def Obligations.PushAppendsOrReportsFull : Prop :=
  ∀ (ch : Chan) (b : Byte) (s : State),
    (s.chan ch).Ok (Config.cap s.cfg ch) → s.mayUse (producerRole ch) →
    ((s.chan ch).count < Config.cap s.cfg ch →
      ∃ t, exec (.push ch b) s = .next t ∧
        (t.chan ch).contents (Config.cap s.cfg ch) =
          (s.chan ch).contents (Config.cap s.cfg ch) ++ [some b] ∧
        (t.chan ch).count = (s.chan ch).count + 1 ∧ (t.chan ch).rd = (s.chan ch).rd ∧
        (t.chan ch).wr = ((s.chan ch).wr + 1) % Config.cap s.cfg ch ∧
        (∀ a, Memory.read? (t.chan ch).buf a =
          if a = (s.chan ch).wr then some b else Memory.read? (s.chan ch).buf a) ∧
        (t.chan ch).wake = (if ch = .rx then true else (s.chan ch).wake) ∧
        t = (s.completed (some (producerRole ch)) [] 1 []).setChan ch (t.chan ch)) ∧
    ((s.chan ch).count = Config.cap s.cfg ch →
      exec (.push ch b) s =
        .next (s.completed (some (producerRole ch)) [.condition (.pushFull ch)] 0 []))

/-- R104: `POPB` removes the oldest byte and returns it, leaving the wake as it was; on an empty RX it holds.
That a `POPB` that holds claims its role is the model's reading (log 14). -/
def Obligations.PopbRemovesTheOldestOrHolds : Prop :=
  ∀ s : State, s.rx.Ok s.cfg.cRx → s.mayUse .rxConsumer → s.port.agent.isInterrupt = false →
    (0 < s.rx.count →
      ∃ b t, exec .popb s = .next t ∧
        s.rx.contents s.cfg.cRx = some b :: t.rx.contents s.cfg.cRx ∧
        t.rx.count = s.rx.count - 1 ∧ t.rx.rd = (s.rx.rd + 1) % s.cfg.cRx ∧
        t.rx.wr = s.rx.wr ∧ t.rx.buf = s.rx.buf ∧ t.rx.wake = s.rx.wake ∧
        t = { s.completed (some .rxConsumer) [] (b.setWidth 32) [b] with rx := t.rx }) ∧
    (s.rx.count = 0 → exec .popb s = .next (s.heldAt .rxConsumer .rx))

/-- R105: `POPNB` removes the `min(count, N)` oldest bytes at once, without waiting; on TX the wake is set when
the free space crosses `TX_HYST`, on RX no flag changes. That a `POPNB` that moves no byte claims its role is the
model's reading (log 14). -/
def Obligations.PopnbRemovesUpToN : Prop :=
  ∀ (ch : Chan) (n : Nat) (s : State),
    (s.chan ch).Ok (Config.cap s.cfg ch) → s.mayUse (consumerRole ch) →
    ∃ out t, exec (.popnb ch n) s = .next t ∧
      List.map some out =
        ((s.chan ch).contents (Config.cap s.cfg ch)).take (min (s.chan ch).count n) ∧
      (t.chan ch).contents (Config.cap s.cfg ch) =
        ((s.chan ch).contents (Config.cap s.cfg ch)).drop (min (s.chan ch).count n) ∧
      (t.chan ch).count = (s.chan ch).count - min (s.chan ch).count n ∧
      (t.chan ch).rd = ((s.chan ch).rd + min (s.chan ch).count n) % Config.cap s.cfg ch ∧
      (t.chan ch).wr = (s.chan ch).wr ∧ (t.chan ch).buf = (s.chan ch).buf ∧
      ((t.chan ch).wake = true ↔
        (s.chan ch).wake = true ∨
          (ch = .tx ∧ s.cfg.cTx - s.tx.count < s.cfg.txHyst ∧
            s.cfg.txHyst ≤ s.cfg.cTx - s.tx.count + min s.tx.count n)) ∧
      t = (s.completed (some (consumerRole ch)) []
        (BitVec.ofNat 32 (min (s.chan ch).count n)) out).setChan ch (t.chan ch)

/-- R106, R107, R124, R125, R129: the queries of the channels and the port answer the free space, the count
and the loss counter, and change nothing. -/
def Obligations.ChannelQueriesAnswer : Prop :=
  ∀ s : State,
    (∀ ch, exec (.free ch) s = .next (s.completed none []
      (BitVec.ofNat 32 (Config.cap s.cfg ch - (s.chan ch).count)) [])) ∧
    (∀ ch, exec (.avail ch) s = .next (s.completed none []
      (BitVec.ofNat 32 (s.chan ch).count) [])) ∧
    exec .wspace s = .next (s.completed none [] (BitVec.ofNat 32 (s.cfg.cTx - s.tx.count)) []) ∧
    exec .ravail s = .next (s.completed none [] (BitVec.ofNat 32 s.rx.count) []) ∧
    exec .rxlost s = .next (s.completed none [] (BitVec.ofNat 32 s.rxLost) [])

/-- R108 (a): the results of `AVAIL` and `FREE` taken in one state sum to the capacity. -/
def Obligations.AvailAndFreeSumToCapacity : Prop :=
  ∀ (ch : Chan) (s : State), s.cfg.Legal → (s.chan ch).Ok (Config.cap s.cfg ch) →
    ∃ ra rf t u, exec (.avail ch) s = .next t ∧ exec (.free ch) s = .next u ∧
      t.history.getLast? = some (.response s.port.agent s.port.word
        { status := .ok, result := ra, data := [] }) ∧
      u.history.getLast? = some (.response s.port.agent s.port.word
        { status := .ok, result := rf, data := [] }) ∧
      ra.toNat + rf.toNat = Config.cap s.cfg ch

/-- R108 (c): from an empty channel, `C_ch + 1` `PUSH` requests with no removal between answer 1 `C_ch` times and
then 0 once, and the first `C_ch` bytes are stored. The last records code 5 (R221); that the condition stands
before the response is the model's reading (log 8). -/
def Obligations.PushesFillAChannelOnce : Prop :=
  ∀ (ch : Chan) (s : State) (bs : List Byte) (b : Byte),
    (s.chan ch).Ok (Config.cap s.cfg ch) → (s.chan ch).count = 0 → s.mayUse (producerRole ch) →
    bs.length = Config.cap s.cfg ch →
    ∃ t u, execAll (bs.map (.push ch)) s = .next t ∧ exec (.push ch b) t = .next u ∧
      t.history = s.history ++ bs.map (fun _ => Event.response s.port.agent s.port.word
        { status := .ok, result := 1, data := [] }) ∧
      u.history = t.history ++ [.condition (.pushFull ch), .response s.port.agent s.port.word
        { status := .ok, result := 0, data := [] }] ∧
      (t.chan ch).contents (Config.cap s.cfg ch) = bs.map some ∧
      (u.chan ch).contents (Config.cap s.cfg ch) = bs.map some

/-! ### The Serial Port Adapter -/

/-- R121: one step of a `WRITE`. With all bytes queued it responds; with free space it copies the next chunk,
emits `TxStart` and responds or stays in flight; with TX full it holds. That `TxStart` stands before the response
in the history (log 8) and that a `WRITE` that holds or has nothing to copy claims its role (log 14) are the
model's readings. -/
def Obligations.WriteCopiesAChunkOrHolds : Prop :=
  ∀ (n : Nat) (s : State), s.tx.Ok s.cfg.cTx → s.mayUse .txProducer →
    s.port.agent.isInterrupt = false → s.port.done + s.port.rest.length = n →
    (s.port.done = n →
      exec (.write n) s = .next (s.completed (some .txProducer) [] (BitVec.ofNat 32 n) [])) ∧
    (s.port.done < n → s.tx.count < s.cfg.cTx →
      ∀ k, k = min (s.cfg.cTx - s.tx.count) (n - s.port.done) →
      ∃ t, exec (.write n) s = .next t ∧
        t.tx.contents s.cfg.cTx =
          s.tx.contents s.cfg.cTx ++ (s.port.rest.take k).map some ∧
        t.tx.count = s.tx.count + k ∧ t.tx.wake = s.tx.wake ∧ t.tx.rd = s.tx.rd ∧
        t.tx.wr = (s.tx.wr + k) % s.cfg.cTx ∧
        (∀ a, (∀ j < k, a ≠ (s.tx.wr + j) % s.cfg.cTx) →
          Memory.read? t.tx.buf a = Memory.read? s.tx.buf a) ∧
        (s.port.done + k = n →
          t = { s.completed (some .txProducer) [.txStart] (BitVec.ofNat 32 n) [] with
            tx := t.tx
            port := { s.port with done := n, rest := [] } }) ∧
        (s.port.done + k < n →
          t = { s with
            tx := t.tx
            roles := s.rolesUsing (some .txProducer)
            port := { s.port with done := s.port.done + k, rest := s.port.rest.drop k }
            conts := s.conts.set s.port.agent (some
              { word := s.port.word, done := s.port.done + k, rest := s.port.rest.drop k,
                waiting := none })
            history := s.history ++ [.txStart]
            draws := s.draws + 1 })) ∧
    (s.port.done < n → s.tx.count = s.cfg.cTx →
      exec (.write n) s = .next (s.heldAt .txProducer .tx))

/-- R123: `READ` takes the bytes that are there, at most `N`; on an empty RX `nowait` answers 0 and `wait` holds.
That a `READ` that moves no byte or holds claims its role is the model's reading (log 14). -/
def Obligations.ReadTakesWhatIsThere : Prop :=
  ∀ (wait : Bool) (n : Nat) (s : State), s.rx.Ok s.cfg.cRx → s.mayUse .rxConsumer →
    (wait = true → s.port.agent.isInterrupt = false) →
    (1 ≤ s.rx.count →
      ∃ out t, exec (.read wait n) s = .next t ∧
        List.map some out = (s.rx.contents s.cfg.cRx).take (min s.rx.count n) ∧
        t.rx.contents s.cfg.cRx = (s.rx.contents s.cfg.cRx).drop (min s.rx.count n) ∧
        t.rx.count = s.rx.count - min s.rx.count n ∧
        t.rx.rd = (s.rx.rd + min s.rx.count n) % s.cfg.cRx ∧
        t.rx.wr = s.rx.wr ∧ t.rx.buf = s.rx.buf ∧ t.rx.wake = s.rx.wake ∧
        t = { s.completed (some .rxConsumer) [] (BitVec.ofNat 32 (min s.rx.count n)) out with
          rx := t.rx }) ∧
    (s.rx.count = 0 → wait = false →
      exec (.read wait n) s = .next (s.completed (some .rxConsumer) [] 0 [])) ∧
    (s.rx.count = 0 → wait = true →
      exec (.read wait n) s = .next (s.heldAt .rxConsumer .rx))

/-- R126, R130: `RXBYTE` stores the byte and sets `RX.wake`; on a full RX it drops the arriving byte, counts it
and leaves the stored bytes and the wake as they were, and code 4 is recorded (R221). That the condition stands
before the response (log 8) and that a `RXBYTE` that drops its byte claims its role (log 14) are the model's
readings. -/
def Obligations.RxbyteStoresOrDropsTheNewest : Prop :=
  ∀ (b : Byte) (s : State), s.rx.Ok s.cfg.cRx → s.mayUse .rxProducer →
    (s.rx.count < s.cfg.cRx →
      ∃ t, exec (.rxbyte b) s = .next t ∧
        t.rx.contents s.cfg.cRx = s.rx.contents s.cfg.cRx ++ [some b] ∧
        t.rx.count = s.rx.count + 1 ∧ t.rx.rd = s.rx.rd ∧ t.rx.wr = (s.rx.wr + 1) % s.cfg.cRx ∧
        (∀ a, Memory.read? t.rx.buf a =
          if a = s.rx.wr then some b else Memory.read? s.rx.buf a) ∧
        t.rx.wake = true ∧
        t = { s.completed (some .rxProducer) [] 1 [] with rx := t.rx }) ∧
    (s.rx.count = s.cfg.cRx →
      exec (.rxbyte b) s =
        .next { s.completed (some .rxProducer) [.condition (.rxOverflow b)] 0 [] with
          rxLost := (s.rxLost + 1) % 2 ^ s.cfg.cntW })

/-- R128, R131: `TXREADY` removes the oldest byte of TX and answers it with the valid bit, and sets `TX.wake`
exactly when the free space becomes `TX_HYST`; on an empty TX it answers 0 and changes nothing. That a `TXREADY`
on an empty TX claims its role is the model's reading (log 14). -/
def Obligations.TxreadyRemovesTheOldest : Prop :=
  ∀ s : State, s.tx.Ok s.cfg.cTx → s.mayUse .txConsumer →
    (0 < s.tx.count →
      ∃ b t, exec .txready s = .next t ∧
        s.tx.contents s.cfg.cTx = some b :: t.tx.contents s.cfg.cTx ∧
        t.tx.count = s.tx.count - 1 ∧ t.tx.rd = (s.tx.rd + 1) % s.cfg.cTx ∧
        t.tx.wr = s.tx.wr ∧ t.tx.buf = s.tx.buf ∧
        (t.tx.wake = true ↔
          s.tx.wake = true ∨ s.cfg.cTx - t.tx.count = s.cfg.txHyst) ∧
        t = { s.completed (some .txConsumer) [] (BitVec.ofNat 32 (256 + b.toNat)) [] with
          tx := t.tx }) ∧
    (s.tx.count = 0 → exec .txready s = .next (s.completed (some .txConsumer) [] 0 []))

/-- R131 and R132, at the interface of TX: from a full TX with the wake clear, `TXREADY` after `TXREADY` sets
the wake at the `TX_HYST`-th removal and not before. -/
def Obligations.WakeComesAtTheHysteresis : Prop :=
  ∀ (s : State) (k : Nat), s.cfg.Legal → s.tx.Ok s.cfg.cTx → s.tx.count = s.cfg.cTx →
    s.tx.wake = false → s.mayUse .txConsumer → k ≤ s.cfg.cTx →
    ∃ t, execAll (List.replicate k .txready) s = .next t ∧
      t.tx.count = s.cfg.cTx - k ∧ (t.tx.wake = true ↔ s.cfg.txHyst ≤ k)

/-- R132: a `WRITE` held on a full TX resumes once TXI has removed `TX_HYST` bytes, and then queues bytes and
emits `TxStart`. That the Resume stands before `TxStart` in the history is the model's reading (log 8). -/
def Obligations.HeldWriteResumesAfterHysteresis : Prop :=
  ∀ (s : State) (a : Agent) (k : Continuation) (later : List Choice) (more : List Request),
    s.Inv → s.conts.get a = some k → k.waiting = some .tx → s.tx.count = s.cfg.cTx →
    s.tx.wake = false →
    (s.roles.txConsumer = none ∨ s.roles.txConsumer = some .txi) →
    s.programs.txi = List.replicate s.cfg.txHyst { word := 0x34000000, data := [] } ++ more →
    s.schedule = List.replicate s.cfg.txHyst (.agent .txi) ++ .agent a :: later →
    ∃ u t, runsTo s.cfg.txHyst s u ∧ u.tx.wake = true ∧ step u = .next t ∧
      t.tx.count = s.cfg.cTx - s.cfg.txHyst + min s.cfg.txHyst k.rest.length ∧
      [Event.resume a .tx, .txStart] <+: t.history.drop u.history.length

/-- R235: the transmitter runs from a `TxStart` until a `TXREADY` returns valid 0. After a step of a `WRITE` that
copies bytes TXI owes a `TXREADY`; a `WRITE` with nothing to copy or held on a full TX, a `TXREADY` that returns
a byte, every other request and an illegal word leave that as it was; a `TXREADY` that finds TX empty ends it.
Over whole steps, a reset apart (that one ends it is the model's choice, log 24): a duty that is owed stays owed,
unless the step ended with the response of a `TXREADY` that found TX empty and returned valid 0. That the
response is the last event of its step is the model's reading (log 8). -/
def Obligations.TransmitterRunsUntilAnInvalidTxready : Prop :=
  ∀ s t : State,
    (∀ n, decode s.port.word = .ok (.write n) → exec (.write n) s = .next t →
      (s.port.done < n → s.tx.count < s.cfg.cTx → txiOwesTxready t = true) ∧
      (s.port.done = n ∨ s.cfg.cTx ≤ s.tx.count → txiOwesTxready t = txiOwesTxready s)) ∧
    (decode s.port.word = .ok .txready → exec .txready s = .next t →
      (0 < s.tx.count → txiOwesTxready t = txiOwesTxready s) ∧
      (s.tx.count = 0 → txiOwesTxready t = false)) ∧
    (∀ i, decode s.port.word = .ok i → i ≠ .txready → (∀ n, i ≠ .write n) →
      exec i s = .next t → txiOwesTxready t = txiOwesTxready s) ∧
    (∀ e, decode s.port.word = .error e → perform s = .next t →
      txiOwesTxready t = txiOwesTxready s) ∧
    (step s = .next t → s.schedule.head? ≠ some .reset → txiOwesTxready s = true →
      txiOwesTxready t = true ∨
        (s.tx.count = 0 ∧ ∃ a w r, t.history.getLast? = some (.response a w r) ∧
          decode w = .ok .txready ∧ r.result.getLsbD 8 = false))

/-! ### The Protocol Decoder -/

/-- R152, R153, R154: the hunt for the sync pair. Every byte is counted; a byte that does not complete the pair
is consumed and is a framing error, recorded as code 2 (R221). That the condition stands before the response is
the model's reading (log 8). -/
def Obligations.FeedHuntsForSync : Prop :=
  ∀ (b : Byte) (s : State), s.mayUse .decoderFeeder →
    (s.dstate = .awaitSync1 → b = 0x55 →
      exec (.feed b) s = .next { s.fed [] with sum := 0x0055, dstate := .awaitSync2 }) ∧
    (s.dstate = .awaitSync1 → b ≠ 0x55 →
      exec (.feed b) s = .next (s.fed [.condition (.framingError b)])) ∧
    (s.dstate = .awaitSync2 → b = 0xAA →
      exec (.feed b) s = .next
        { s.fed [] with sum := s.sum + 0x00AA, idx := 0, dstate := .readingBody }) ∧
    (s.dstate = .awaitSync2 → b ≠ 0xAA →
      exec (.feed b) s = .next
        { s.fed [.condition (.framingError b)] with
          sum := s.sum + b.setWidth 16, dstate := .awaitSync1 })

/-- R155: a body byte is added to the sum and stored at `mem_s[idx]`, and the 256th moves the decoder on.
As at every `FEED`, the byte is counted (R152). -/
def Obligations.FeedStoresABodyByte : Prop :=
  ∀ (b : Byte) (s : State), s.mayUse .decoderFeeder → s.dstate = .readingBody →
    s.idx.toNat < 256 →
    ∃ t, exec (.feed b) s = .next t ∧
      (∀ a, Memory.read? t.memS a =
        if a = s.idx.toNat then some b else Memory.read? s.memS a) ∧
      t = { s.fed [] with
        sum := s.sum + b.setWidth 16
        memS := t.memS
        idx := BitVec.ofNat 9 (s.idx.toNat + 1)
        dstate := if s.idx.toNat = 255 then .readingStatus else .readingBody }

/-- R155 says of a body byte "idx is 0..255 here" and gives no meaning to an `idx` of 256 or more, which no run
from reset reaches. The model's choice (log 10) is to stop there with a fault. -/
def Obligations.FeedOutsideTheStagingCopyFaults : Prop :=
  ∀ (b : Byte) (s : State), s.mayUse .decoderFeeder → s.dstate = .readingBody →
    256 ≤ s.idx.toNat → exec (.feed b) s = .fault (.stagingIndex s.idx)

/-- R156: the status byte is added to the sum and stored nowhere. As at every `FEED`, it is counted (R152). -/
def Obligations.FeedDiscardsTheStatusByte : Prop :=
  ∀ (b : Byte) (s : State), s.mayUse .decoderFeeder → s.dstate = .readingStatus →
    exec (.feed b) s = .next
      { s.fed [] with sum := s.sum + b.setWidth 16, idx := 0, dstate := .readingAnalog }

/-- R157: an analog byte is added to the sum; at an even index it starts the word `adc_s[idx / 2]`, at an odd
index it is added to that word's high half, modulo 2^16; the 16th byte moves the decoder on. -/
def Obligations.FeedStoresAnAnalogByte : Prop :=
  ∀ (b : Byte) (s : State) (old : Half), s.mayUse .decoderFeeder → s.dstate = .readingAnalog →
    s.idx.toNat < 16 →
    (s.idx.toNat % 2 = 1 → Memory.read? s.adcS (s.idx.toNat / 2) = some old) →
    ∃ t, exec (.feed b) s = .next t ∧
      (∀ m, Memory.read? t.adcS m =
        if m = s.idx.toNat / 2 then
          some (if s.idx.toNat % 2 = 0 then b.setWidth 16 else old + (b.setWidth 16 <<< 8))
        else Memory.read? s.adcS m) ∧
      t = { s.fed [] with
        sum := s.sum + b.setWidth 16
        adcS := t.adcS
        idx := BitVec.ofNat 9 (s.idx.toNat + 1)
        dstate := if s.idx.toNat = 15 then .awaitChecksumHi else .readingAnalog }

/-- R157 and R53: two analog bytes at an even index become the word `low + 256 * high` at `adc_s[idx / 2]`, and
the 16th byte moves the decoder on; nothing else is stored. -/
def Obligations.FeedAssemblesAnAnalogWord : Prop :=
  ∀ (lo hi : Byte) (s : State) (j : Nat), s.mayUse .decoderFeeder →
    s.dstate = .readingAnalog → s.idx.toNat = 2 * j → j < 8 →
    ∃ t, execAll [.feed lo, .feed hi] s = .next t ∧
      (∀ m, Memory.read? t.adcS m =
        if m = j then some (BitVec.ofNat 16 (lo.toNat + 256 * hi.toNat))
        else Memory.read? s.adcS m) ∧
      t = { (s.fed []).fed [] with
        sum := s.sum + lo.setWidth 16 + hi.setWidth 16
        adcS := t.adcS
        idx := BitVec.ofNat 9 (2 * j + 2)
        dstate := if j = 7 then .awaitChecksumHi else .readingAnalog }

/-- R158, R159, R180: the two checksum bytes. The frame is published exactly when the sum of what came before is
`256 * high + low`; otherwise it is counted bad, code 3 is recorded with the sum and the byte (R221), and the
snapshot stays. Either way the decoder hunts again. That the condition stands before the response is the model's
reading (log 8). -/
def Obligations.FeedComparesTheChecksum : Prop :=
  ∀ (hi lo : Byte) (s : State), s.mayUse .decoderFeeder → s.dstate = .awaitChecksumHi →
    (s.sum.toNat = 256 * hi.toNat + lo.toNat →
      execAll [.feed hi, .feed lo] s = .next { (s.fed []).fed [] with
        sum := lo.setWidth 16
        dstate := .awaitSync1
        memP := s.memS
        adcP := s.adcS
        updated := true
        connected := true
        nGood := (s.nGood + 1) % 2 ^ s.cfg.cntW }) ∧
    (s.sum.toNat ≠ 256 * hi.toNat + lo.toNat →
      execAll [.feed hi, .feed lo] s = .next
        { (s.fed []).fed [.condition (.checksumFailure (s.sum - (hi.setWidth 16 <<< 8)) lo)] with
          sum := s.sum - (hi.setWidth 16 <<< 8)
          dstate := .awaitSync1
          nBad := (s.nBad + 1) % 2 ^ s.cfg.cntW })

/-- R160: in the unrecognized state a byte brings the decoder back to AwaitSync1 and only `n_bytes` changes; code
6 is recorded (R221). That the condition stands before the response is the model's reading (log 8). -/
def Obligations.FeedRecoversFromCodeSeven : Prop :=
  ∀ (b : Byte) (s : State), s.mayUse .decoderFeeder → s.dstate.code = 7 →
    exec (.feed b) s = .next
      { s.fed [.condition (.stateRecovery b)] with dstate := .awaitSync1 }

/-- R256: the second sync byte is not looked at again: `0x55 0x55 0xAA` does not synchronise. -/
def Obligations.DoubledSyncByteIsMissed : Prop :=
  ∀ s : State, s.mayUse .decoderFeeder → s.dstate = .awaitSync1 →
    ∃ t, execAll [.feed 0x55, .feed 0x55, .feed 0xAA] s = .next t ∧ t.dstate = .awaitSync1

/-- R161, R151, R180: the checksum law. A frame fed from AwaitSync1 is published, byte for byte, exactly when
the sum of its bytes 0 to 274 modulo 2^16 is the big-endian value of its last two; otherwise it is counted bad
and the snapshot stays. -/
def Obligations.FrameIsPublishedIffItsChecksumMatches : Prop :=
  ∀ (s : State) (B : List Byte), s.mayUse .decoderFeeder → s.dstate = .awaitSync1 →
    B.length = 277 → B[0]? = some 0x55 → B[1]? = some 0xAA →
    ∃ t, execAll (B.map .feed) s = .next t ∧ t.dstate = .awaitSync1 ∧
      t.nBytes = (s.nBytes + 277) % 2 ^ s.cfg.cntW ∧
      t.rx = s.rx ∧ t.tx = s.tx ∧ t.rxLost = s.rxLost ∧
      (((B.take 275).map BitVec.toNat).sum % 2 ^ 16 =
          256 * (B.getD 275 0).toNat + (B.getD 276 0).toNat →
        (∀ a < 256, Memory.read? t.memP a = B[2 + a]?) ∧
        (∀ i < 8, Memory.read? t.adcP i =
          some (BitVec.ofNat 16
            ((B.getD (259 + 2 * i) 0).toNat + 256 * (B.getD (260 + 2 * i) 0).toNat))) ∧
        t.updated = true ∧ t.connected = true ∧
        t.nGood = (s.nGood + 1) % 2 ^ s.cfg.cntW ∧ t.nBad = s.nBad) ∧
      (((B.take 275).map BitVec.toNat).sum % 2 ^ 16 ≠
          256 * (B.getD 275 0).toNat + (B.getD 276 0).toNat →
        t.memP = s.memP ∧ t.adcP = s.adcP ∧ t.updated = s.updated ∧
        t.connected = s.connected ∧ t.nGood = s.nGood ∧
        t.nBad = (s.nBad + 1) % 2 ^ s.cfg.cntW)

/-- R164: in a frame whose checksum bytes are correct, changing any one byte among bytes 2 to 276 makes the
frame fail: it is counted bad and the snapshot stays. -/
def Obligations.OneChangedByteIsDetected : Prop :=
  ∀ (s : State) (B : List Byte) (j : Nat) (v : Byte), s.mayUse .decoderFeeder →
    s.dstate = .awaitSync1 → B.length = 277 → B[0]? = some 0x55 → B[1]? = some 0xAA →
    ((B.take 275).map BitVec.toNat).sum % 2 ^ 16 =
      256 * (B.getD 275 0).toNat + (B.getD 276 0).toNat →
    2 ≤ j → j ≤ 276 → v ≠ B.getD j 0 →
    ∃ t, execAll ((B.set j v).map .feed) s = .next t ∧
      t.memP = s.memP ∧ t.adcP = s.adcP ∧ t.updated = s.updated ∧
      t.nGood = s.nGood ∧ t.nBad = (s.nBad + 1) % 2 ^ s.cfg.cntW

/-! ### The snapshot -/

/-- R181: `WASUPD` returns `updated` and clears it in the same step; asked twice with no publish between it
returns the flag and then 0. -/
def Obligations.WasupdConsumesTheFlag : Prop :=
  ∀ s : State, s.mayUse .updateConsumer →
    exec .wasupd s = .next { s.completed (some .updateConsumer) [] (if s.updated then 1 else 0) []
      with updated := false } ∧
    ∀ t, exec .wasupd s = .next t → ∃ u, exec .wasupd t = .next u ∧
      u.history = t.history ++ [.response s.port.agent s.port.word
        { status := .ok, result := 0, data := [] }]

/-- R182 to R185: the counters' low 32 bits and the connected flag, and nothing changes. -/
def Obligations.DecoderStatusQueriesAnswer : Prop :=
  ∀ s : State,
    exec .nbytes s = .next (s.completed none [] (BitVec.ofNat 32 s.nBytes) []) ∧
    exec .ngood s = .next (s.completed none [] (BitVec.ofNat 32 s.nGood) []) ∧
    exec .nbad s = .next (s.completed none [] (BitVec.ofNat 32 s.nBad) []) ∧
    exec .conn s = .next (s.completed none [] (if s.connected then 1 else 0) [])

/-- R186, R187, R40: `MEM` and `ADC` answer the snapshot's element, zero-extended, and change nothing; an
element no publish has written is the step's free draw. -/
def Obligations.SnapshotReadsAnswer : Prop :=
  ∀ (s : State) (a i : Nat),
    (∀ v, Memory.read? s.memP a = some v →
      exec (.mem a) s = .next (s.completed none [] (v.setWidth 32) [])) ∧
    (Memory.read? s.memP a = none →
      exec (.mem a) s = .next (s.completed none [] ((Config.freeByte s.draws a).setWidth 32) [])) ∧
    (∀ v, Memory.read? s.adcP i = some v →
      exec (.adc i) s = .next (s.completed none [] (v.setWidth 32) [])) ∧
    (Memory.read? s.adcP i = none →
      exec (.adc i) s = .next (s.completed none [] ((Config.freeHalf s.draws i).setWidth 32) []))

/-- R59: a request without a role is a query: it completes, answers no data, and changes no state of the
block. -/
def Obligations.QueriesChangeNothing : Prop :=
  ∀ (i : Instr) (s : State), roleOf i = none →
    ∃ r, exec i s = .next (s.completed none [] r [])

/-! ### The view -/

/-- R201, R202, R205: engine speed, road speed and voltage. -/
def Obligations.SpeedAndVoltageAnswer : Prop :=
  ∀ s : State,
    (∃ r : Nat, exec .engspd s = .next (s.completed none [] (BitVec.ofNat 32 r) []) ∧
      (r : ℤ) = (s.mem 0xF3).toNat * 31 + ⌊((s.mem 0xF3).toNat : ℚ) / 4⌋ ∧ r ≤ 7968) ∧
    exec .gndspd s = .next (s.completed none [] ((s.mem 0x34).setWidth 32) []) ∧
    exec .volt s = .next (s.completed none [] ((s.mem 0x45).setWidth 32) [])

/-- R203, R210: oil pressure is the calibration `(c - 102) / 8.192` rounded to nearest with ties up, clamped
below 102 to 0 and above 921 to 100. -/
def Obligations.OilPressureIsTheRoundedCalibration : Prop :=
  ∀ s : State, ∃ r : Nat, exec .oilp s = .next (s.completed none [] (BitVec.ofNat 32 r) []) ∧
    ((s.adc 2).toNat < 102 → r = 0) ∧
    (921 < (s.adc 2).toNat → r = 100) ∧
    (102 ≤ (s.adc 2).toNat → (s.adc 2).toNat ≤ 921 →
      (r : ℤ) = ⌊(((s.adc 2).toNat : ℚ) - 102) / (8192 / 1000) + 1 / 2⌋)

/-- R204, R210: water temperature is `m * 0.75 - 40` rounded to nearest with ties up, clamped at 0. -/
def Obligations.WaterTemperatureIsTheRoundedCurve : Prop :=
  ∀ s : State, ∃ r : Nat, exec .wtemp s = .next (s.completed none [] (BitVec.ofNat 32 r) []) ∧
    (r : ℤ) = max 0 ⌊((s.mem 0xE3).toNat : ℚ) * (3 / 4) - 40 + 1 / 2⌋ ∧ r ≤ 151

/-- R206, R210: air-fuel ratio times ten is `(c / 102.4 + 9.6) * 10` rounded to nearest with ties up, with no
clamp. -/
def Obligations.AirFuelRatioIsRounded : Prop :=
  ∀ s : State, ∃ r : Nat, exec .afr s = .next (s.completed none [] (BitVec.ofNat 32 r) []) ∧
    (r : ℤ) = ⌊(((s.adc 1).toNat : ℚ) / (1024 / 10) + 96 / 10) * 10 + 1 / 2⌋ ∧ r ≤ 6496

/-- R207, R208: the SES bit and the engine-running bit. -/
def Obligations.StatusBitsAnswer : Prop :=
  ∀ s : State,
    exec .ses s = .next (s.completed none []
      (BitVec.ofNat 32 ((s.mem 0x0B).toNat % 2)) []) ∧
    exec .run s = .next (s.completed none []
      (BitVec.ofNat 32 ((s.mem 0x01).toNat / 128)) [])

/-- R209: `DTC k` answers the (k+1)-th set bit of the three trouble-code bytes, bit 0 of `mem_p[0x12]` first,
as a code number; with no such bit it answers 0xFFFF. -/
def Obligations.DtcAnswersTheKthSetBit : Prop :=
  ∀ (k : Nat) (s : State) (on : Nat → Bool),
    (∀ c, on c = (s.mem (0x12 + c / 8)).getLsbD (c % 8)) →
    ∃ r : Nat, exec (.dtc k) s = .next (s.completed none [] (BitVec.ofNat 32 r) []) ∧
      (∀ c < 24, on c = true → (List.range c).countP on = k → r = c) ∧
      ((List.range 24).countP on ≤ k → r = 0xFFFF)

/-- R52, R200: the view reads the listed snapshot elements and no others: where two states agree on those,
every view request answers the same result in both. -/
def Obligations.ViewDependsOnlyOnItsElements : Prop :=
  ∀ (i : Instr) (s t : State),
    (i ∈ [Instr.engspd, .gndspd, .oilp, .wtemp, .volt, .afr, .ses, .run] ∨ ∃ k, i = .dtc k) →
    (∀ a ∈ [0x01, 0x0B, 0x12, 0x13, 0x14, 0x34, 0x45, 0xE3, 0xF3], s.mem a = t.mem a) →
    (∀ j ∈ [1, 2], s.adc j = t.adc j) →
    ∃ r, exec i s = .next (s.completed none [] r []) ∧ exec i t = .next (t.completed none [] r [])
end

