-- ==== Sys2Proof/Laws/Decode.lean ====
section
/-! SUPPORT. The fields of a word put together and taken apart (30_encoding R70). -/

namespace Sys2Proof

/-- The bits of a word put together from fields. -/
theorem getLsbD_mkWord (op : BitVec 6) (ch wait : Bool) (rsv : BitVec 8) (imm : Half) (i : Nat)
    (hi : i < 32) :
    (mkWord op ch wait rsv imm).getLsbD i =
      if i < 16 then imm.getLsbD i
      else if i < 24 then rsv.getLsbD (i - 16)
      else if i = 24 then wait
      else if i = 25 then ch
      else op.getLsbD (i - 26) := by
  simp only [mkWord, BitVec.getLsbD_or, BitVec.getLsbD_shiftLeft, BitVec.getLsbD_setWidth,
    BitVec.getLsbD_ofBool]
  have h : i < 16 ∨ (16 ≤ i ∧ i < 24) ∨ i = 24 ∨ i = 25 ∨ 26 ≤ i := by omega
  rcases h with h | ⟨h1, h2⟩ | rfl | rfl | h
  · simp [h, hi, show i < 26 by omega, show i < 25 by omega, show i < 24 by omega]
  · simp [hi, show ¬ i < 16 by omega, show i < 26 by omega, show i < 25 by omega, h2,
      show i - 16 < 32 by omega, BitVec.getLsbD_of_ge imm i (by omega)]
  · simp
  · simp
  · simp [hi, show ¬ i < 16 by omega, show ¬ i < 26 by omega, show ¬ i < 24 by omega,
      show ¬ i < 25 by omega, show i ≠ 24 by omega, show i ≠ 25 by omega,
      show i - 26 < 32 by omega, show i - 25 ≠ 0 by omega, show i - 24 ≠ 0 by omega,
      BitVec.getLsbD_of_ge imm i (by omega), BitVec.getLsbD_of_ge rsv (i - 16) (by omega)]

@[simp] theorem opField_mkWord (op : BitVec 6) (ch wait : Bool) (rsv : BitVec 8) (imm : Half) :
    opField (mkWord op ch wait rsv imm) = op := by
  refine BitVec.eq_of_getLsbD_eq fun i hi => ?_
  rw [opField, BitVec.getLsbD_extractLsb', getLsbD_mkWord _ _ _ _ _ _ (by omega)]
  simp [hi, show ¬ 26 + i < 16 by omega, show ¬ 26 + i < 24 by omega, show ¬ 26 + i = 24 by omega,
    show ¬ 26 + i = 25 by omega]

@[simp] theorem chBit_mkWord (op : BitVec 6) (ch wait : Bool) (rsv : BitVec 8) (imm : Half) :
    chBit (mkWord op ch wait rsv imm) = ch := by
  rw [chBit, getLsbD_mkWord _ _ _ _ _ _ (by omega)]; simp

@[simp] theorem waitBit_mkWord (op : BitVec 6) (ch wait : Bool) (rsv : BitVec 8) (imm : Half) :
    waitBit (mkWord op ch wait rsv imm) = wait := by
  rw [waitBit, getLsbD_mkWord _ _ _ _ _ _ (by omega)]; simp

@[simp] theorem rsvField_mkWord (op : BitVec 6) (ch wait : Bool) (rsv : BitVec 8) (imm : Half) :
    rsvField (mkWord op ch wait rsv imm) = rsv := by
  refine BitVec.eq_of_getLsbD_eq fun i hi => ?_
  rw [rsvField, BitVec.getLsbD_extractLsb', getLsbD_mkWord _ _ _ _ _ _ (by omega)]
  simp [hi, show ¬ 16 + i < 16 by omega, show 16 + i < 24 by omega]

@[simp] theorem immField_mkWord (op : BitVec 6) (ch wait : Bool) (rsv : BitVec 8) (imm : Half) :
    immField (mkWord op ch wait rsv imm) = imm := by
  refine BitVec.eq_of_getLsbD_eq fun i hi => ?_
  rw [immField, BitVec.getLsbD_extractLsb', getLsbD_mkWord _ _ _ _ _ _ (by omega)]
  simp [hi]

/-- A word is its fields (R70): no bit of it lies outside them. -/
theorem mkWord_fields (w : Word) :
    mkWord (opField w) (chBit w) (waitBit w) (rsvField w) (immField w) = w := by
  refine BitVec.eq_of_getLsbD_eq fun i hi => ?_
  rw [getLsbD_mkWord _ _ _ _ _ _ hi]
  split
  · simp [immField, *]
  · split
    · rw [rsvField, BitVec.getLsbD_extractLsb', show 16 + (i - 16) = i by omega]
      simp [show i - 16 < 8 by omega]
    · split
      · subst i; rfl
      · split
        · subst i; rfl
        · rw [opField, BitVec.getLsbD_extractLsb', show 26 + (i - 26) = i by omega]
          simp [show i - 26 < 6 by omega]

/-- Decoding a word put together from fields is decoding the fields. -/
theorem decode_mkWord (op : BitVec 6) (ch wait : Bool) (rsv : BitVec 8) (imm : Half) :
    decode (mkWord op ch wait rsv imm) = decodeFields op ch wait rsv imm := by
  simp [decode]

@[simp] theorem chanOf_bit (ch : Chan) : chanOf ch.bit = ch := by cases ch <;> rfl

@[simp] theorem bit_chanOf (b : Bool) : (chanOf b).bit = b := by cases b <;> rfl

end Sys2Proof
end

