-- ==== Sys2Proof/Laws/State.lean ====
section
/-! SUPPORT. Each update of the state, field by field: what it leaves alone and what it puts where. True by
unfolding the update once; later proofs cite these. -/

namespace Sys2Proof.Machine

/-! ### `answer` -/

@[simp] theorem State.answer_cfg (s : State) (st : Status) (r : Word) (d : List Byte) :
    (s.answer st r d).cfg = s.cfg := rfl
@[simp] theorem State.answer_rx (s : State) (st : Status) (r : Word) (d : List Byte) :
    (s.answer st r d).rx = s.rx := rfl
@[simp] theorem State.answer_tx (s : State) (st : Status) (r : Word) (d : List Byte) :
    (s.answer st r d).tx = s.tx := rfl
@[simp] theorem State.answer_rxLost (s : State) (st : Status) (r : Word) (d : List Byte) :
    (s.answer st r d).rxLost = s.rxLost := rfl
@[simp] theorem State.answer_dstate (s : State) (st : Status) (r : Word) (d : List Byte) :
    (s.answer st r d).dstate = s.dstate := rfl
@[simp] theorem State.answer_idx (s : State) (st : Status) (r : Word) (d : List Byte) :
    (s.answer st r d).idx = s.idx := rfl
@[simp] theorem State.answer_sum (s : State) (st : Status) (r : Word) (d : List Byte) :
    (s.answer st r d).sum = s.sum := rfl
@[simp] theorem State.answer_memS (s : State) (st : Status) (r : Word) (d : List Byte) :
    (s.answer st r d).memS = s.memS := rfl
@[simp] theorem State.answer_adcS (s : State) (st : Status) (r : Word) (d : List Byte) :
    (s.answer st r d).adcS = s.adcS := rfl
@[simp] theorem State.answer_memP (s : State) (st : Status) (r : Word) (d : List Byte) :
    (s.answer st r d).memP = s.memP := rfl
@[simp] theorem State.answer_adcP (s : State) (st : Status) (r : Word) (d : List Byte) :
    (s.answer st r d).adcP = s.adcP := rfl
@[simp] theorem State.answer_updated (s : State) (st : Status) (r : Word) (d : List Byte) :
    (s.answer st r d).updated = s.updated := rfl
@[simp] theorem State.answer_connected (s : State) (st : Status) (r : Word) (d : List Byte) :
    (s.answer st r d).connected = s.connected := rfl
@[simp] theorem State.answer_nBytes (s : State) (st : Status) (r : Word) (d : List Byte) :
    (s.answer st r d).nBytes = s.nBytes := rfl
@[simp] theorem State.answer_nGood (s : State) (st : Status) (r : Word) (d : List Byte) :
    (s.answer st r d).nGood = s.nGood := rfl
@[simp] theorem State.answer_nBad (s : State) (st : Status) (r : Word) (d : List Byte) :
    (s.answer st r d).nBad = s.nBad := rfl
@[simp] theorem State.answer_roles (s : State) (st : Status) (r : Word) (d : List Byte) :
    (s.answer st r d).roles = s.roles := rfl
@[simp] theorem State.answer_port (s : State) (st : Status) (r : Word) (d : List Byte) :
    (s.answer st r d).port = s.port := rfl
@[simp] theorem State.answer_programs (s : State) (st : Status) (r : Word) (d : List Byte) :
    (s.answer st r d).programs = s.programs := rfl
@[simp] theorem State.answer_schedule (s : State) (st : Status) (r : Word) (d : List Byte) :
    (s.answer st r d).schedule = s.schedule := rfl

/-! ### `suspend` -/

@[simp] theorem State.suspend_cfg (s : State) (w : Option Chan) :
    (s.suspend w).cfg = s.cfg := rfl
@[simp] theorem State.suspend_rx (s : State) (w : Option Chan) :
    (s.suspend w).rx = s.rx := rfl
@[simp] theorem State.suspend_tx (s : State) (w : Option Chan) :
    (s.suspend w).tx = s.tx := rfl
@[simp] theorem State.suspend_rxLost (s : State) (w : Option Chan) :
    (s.suspend w).rxLost = s.rxLost := rfl
@[simp] theorem State.suspend_dstate (s : State) (w : Option Chan) :
    (s.suspend w).dstate = s.dstate := rfl
@[simp] theorem State.suspend_idx (s : State) (w : Option Chan) :
    (s.suspend w).idx = s.idx := rfl
@[simp] theorem State.suspend_sum (s : State) (w : Option Chan) :
    (s.suspend w).sum = s.sum := rfl
@[simp] theorem State.suspend_memS (s : State) (w : Option Chan) :
    (s.suspend w).memS = s.memS := rfl
@[simp] theorem State.suspend_adcS (s : State) (w : Option Chan) :
    (s.suspend w).adcS = s.adcS := rfl
@[simp] theorem State.suspend_memP (s : State) (w : Option Chan) :
    (s.suspend w).memP = s.memP := rfl
@[simp] theorem State.suspend_adcP (s : State) (w : Option Chan) :
    (s.suspend w).adcP = s.adcP := rfl
@[simp] theorem State.suspend_updated (s : State) (w : Option Chan) :
    (s.suspend w).updated = s.updated := rfl
@[simp] theorem State.suspend_connected (s : State) (w : Option Chan) :
    (s.suspend w).connected = s.connected := rfl
@[simp] theorem State.suspend_nBytes (s : State) (w : Option Chan) :
    (s.suspend w).nBytes = s.nBytes := rfl
@[simp] theorem State.suspend_nGood (s : State) (w : Option Chan) :
    (s.suspend w).nGood = s.nGood := rfl
@[simp] theorem State.suspend_nBad (s : State) (w : Option Chan) :
    (s.suspend w).nBad = s.nBad := rfl
@[simp] theorem State.suspend_roles (s : State) (w : Option Chan) :
    (s.suspend w).roles = s.roles := rfl
@[simp] theorem State.suspend_history (s : State) (w : Option Chan) :
    (s.suspend w).history = s.history := rfl
@[simp] theorem State.suspend_port (s : State) (w : Option Chan) :
    (s.suspend w).port = s.port := rfl
@[simp] theorem State.suspend_programs (s : State) (w : Option Chan) :
    (s.suspend w).programs = s.programs := rfl
@[simp] theorem State.suspend_schedule (s : State) (w : Option Chan) :
    (s.suspend w).schedule = s.schedule := rfl

/-! ### `emit` -/

@[simp] theorem State.emit_cfg (s : State) (e : Event) :
    (s.emit e).cfg = s.cfg := rfl
@[simp] theorem State.emit_rx (s : State) (e : Event) :
    (s.emit e).rx = s.rx := rfl
@[simp] theorem State.emit_tx (s : State) (e : Event) :
    (s.emit e).tx = s.tx := rfl
@[simp] theorem State.emit_rxLost (s : State) (e : Event) :
    (s.emit e).rxLost = s.rxLost := rfl
@[simp] theorem State.emit_dstate (s : State) (e : Event) :
    (s.emit e).dstate = s.dstate := rfl
@[simp] theorem State.emit_idx (s : State) (e : Event) :
    (s.emit e).idx = s.idx := rfl
@[simp] theorem State.emit_sum (s : State) (e : Event) :
    (s.emit e).sum = s.sum := rfl
@[simp] theorem State.emit_memS (s : State) (e : Event) :
    (s.emit e).memS = s.memS := rfl
@[simp] theorem State.emit_adcS (s : State) (e : Event) :
    (s.emit e).adcS = s.adcS := rfl
@[simp] theorem State.emit_memP (s : State) (e : Event) :
    (s.emit e).memP = s.memP := rfl
@[simp] theorem State.emit_adcP (s : State) (e : Event) :
    (s.emit e).adcP = s.adcP := rfl
@[simp] theorem State.emit_updated (s : State) (e : Event) :
    (s.emit e).updated = s.updated := rfl
@[simp] theorem State.emit_connected (s : State) (e : Event) :
    (s.emit e).connected = s.connected := rfl
@[simp] theorem State.emit_nBytes (s : State) (e : Event) :
    (s.emit e).nBytes = s.nBytes := rfl
@[simp] theorem State.emit_nGood (s : State) (e : Event) :
    (s.emit e).nGood = s.nGood := rfl
@[simp] theorem State.emit_nBad (s : State) (e : Event) :
    (s.emit e).nBad = s.nBad := rfl
@[simp] theorem State.emit_conts (s : State) (e : Event) :
    (s.emit e).conts = s.conts := rfl
@[simp] theorem State.emit_roles (s : State) (e : Event) :
    (s.emit e).roles = s.roles := rfl
@[simp] theorem State.emit_draws (s : State) (e : Event) :
    (s.emit e).draws = s.draws := rfl
@[simp] theorem State.emit_port (s : State) (e : Event) :
    (s.emit e).port = s.port := rfl
@[simp] theorem State.emit_programs (s : State) (e : Event) :
    (s.emit e).programs = s.programs := rfl
@[simp] theorem State.emit_schedule (s : State) (e : Event) :
    (s.emit e).schedule = s.schedule := rfl

/-! ### `meets` -/

@[simp] theorem State.meets_cfg (s : State) (c : Condition) :
    (s.meets c).cfg = s.cfg := rfl
@[simp] theorem State.meets_rx (s : State) (c : Condition) :
    (s.meets c).rx = s.rx := rfl
@[simp] theorem State.meets_tx (s : State) (c : Condition) :
    (s.meets c).tx = s.tx := rfl
@[simp] theorem State.meets_rxLost (s : State) (c : Condition) :
    (s.meets c).rxLost = s.rxLost := rfl
@[simp] theorem State.meets_dstate (s : State) (c : Condition) :
    (s.meets c).dstate = s.dstate := rfl
@[simp] theorem State.meets_idx (s : State) (c : Condition) :
    (s.meets c).idx = s.idx := rfl
@[simp] theorem State.meets_sum (s : State) (c : Condition) :
    (s.meets c).sum = s.sum := rfl
@[simp] theorem State.meets_memS (s : State) (c : Condition) :
    (s.meets c).memS = s.memS := rfl
@[simp] theorem State.meets_adcS (s : State) (c : Condition) :
    (s.meets c).adcS = s.adcS := rfl
@[simp] theorem State.meets_memP (s : State) (c : Condition) :
    (s.meets c).memP = s.memP := rfl
@[simp] theorem State.meets_adcP (s : State) (c : Condition) :
    (s.meets c).adcP = s.adcP := rfl
@[simp] theorem State.meets_updated (s : State) (c : Condition) :
    (s.meets c).updated = s.updated := rfl
@[simp] theorem State.meets_connected (s : State) (c : Condition) :
    (s.meets c).connected = s.connected := rfl
@[simp] theorem State.meets_nBytes (s : State) (c : Condition) :
    (s.meets c).nBytes = s.nBytes := rfl
@[simp] theorem State.meets_nGood (s : State) (c : Condition) :
    (s.meets c).nGood = s.nGood := rfl
@[simp] theorem State.meets_nBad (s : State) (c : Condition) :
    (s.meets c).nBad = s.nBad := rfl
@[simp] theorem State.meets_conts (s : State) (c : Condition) :
    (s.meets c).conts = s.conts := rfl
@[simp] theorem State.meets_roles (s : State) (c : Condition) :
    (s.meets c).roles = s.roles := rfl
@[simp] theorem State.meets_draws (s : State) (c : Condition) :
    (s.meets c).draws = s.draws := rfl
@[simp] theorem State.meets_port (s : State) (c : Condition) :
    (s.meets c).port = s.port := rfl
@[simp] theorem State.meets_programs (s : State) (c : Condition) :
    (s.meets c).programs = s.programs := rfl
@[simp] theorem State.meets_schedule (s : State) (c : Condition) :
    (s.meets c).schedule = s.schedule := rfl

/-! ### `setChan` -/

@[simp] theorem State.setChan_cfg (s : State) (ch : Chan) (c : Channel) :
    (s.setChan ch c).cfg = s.cfg := by cases ch <;> rfl
@[simp] theorem State.setChan_rxLost (s : State) (ch : Chan) (c : Channel) :
    (s.setChan ch c).rxLost = s.rxLost := by cases ch <;> rfl
@[simp] theorem State.setChan_dstate (s : State) (ch : Chan) (c : Channel) :
    (s.setChan ch c).dstate = s.dstate := by cases ch <;> rfl
@[simp] theorem State.setChan_idx (s : State) (ch : Chan) (c : Channel) :
    (s.setChan ch c).idx = s.idx := by cases ch <;> rfl
@[simp] theorem State.setChan_sum (s : State) (ch : Chan) (c : Channel) :
    (s.setChan ch c).sum = s.sum := by cases ch <;> rfl
@[simp] theorem State.setChan_memS (s : State) (ch : Chan) (c : Channel) :
    (s.setChan ch c).memS = s.memS := by cases ch <;> rfl
@[simp] theorem State.setChan_adcS (s : State) (ch : Chan) (c : Channel) :
    (s.setChan ch c).adcS = s.adcS := by cases ch <;> rfl
@[simp] theorem State.setChan_memP (s : State) (ch : Chan) (c : Channel) :
    (s.setChan ch c).memP = s.memP := by cases ch <;> rfl
@[simp] theorem State.setChan_adcP (s : State) (ch : Chan) (c : Channel) :
    (s.setChan ch c).adcP = s.adcP := by cases ch <;> rfl
@[simp] theorem State.setChan_updated (s : State) (ch : Chan) (c : Channel) :
    (s.setChan ch c).updated = s.updated := by cases ch <;> rfl
@[simp] theorem State.setChan_connected (s : State) (ch : Chan) (c : Channel) :
    (s.setChan ch c).connected = s.connected := by cases ch <;> rfl
@[simp] theorem State.setChan_nBytes (s : State) (ch : Chan) (c : Channel) :
    (s.setChan ch c).nBytes = s.nBytes := by cases ch <;> rfl
@[simp] theorem State.setChan_nGood (s : State) (ch : Chan) (c : Channel) :
    (s.setChan ch c).nGood = s.nGood := by cases ch <;> rfl
@[simp] theorem State.setChan_nBad (s : State) (ch : Chan) (c : Channel) :
    (s.setChan ch c).nBad = s.nBad := by cases ch <;> rfl
@[simp] theorem State.setChan_conts (s : State) (ch : Chan) (c : Channel) :
    (s.setChan ch c).conts = s.conts := by cases ch <;> rfl
@[simp] theorem State.setChan_roles (s : State) (ch : Chan) (c : Channel) :
    (s.setChan ch c).roles = s.roles := by cases ch <;> rfl
@[simp] theorem State.setChan_history (s : State) (ch : Chan) (c : Channel) :
    (s.setChan ch c).history = s.history := by cases ch <;> rfl
@[simp] theorem State.setChan_draws (s : State) (ch : Chan) (c : Channel) :
    (s.setChan ch c).draws = s.draws := by cases ch <;> rfl
@[simp] theorem State.setChan_port (s : State) (ch : Chan) (c : Channel) :
    (s.setChan ch c).port = s.port := by cases ch <;> rfl
@[simp] theorem State.setChan_programs (s : State) (ch : Chan) (c : Channel) :
    (s.setChan ch c).programs = s.programs := by cases ch <;> rfl
@[simp] theorem State.setChan_schedule (s : State) (ch : Chan) (c : Channel) :
    (s.setChan ch c).schedule = s.schedule := by cases ch <;> rfl

/-! ### `putByte` -/

@[simp] theorem State.putByte_cfg (s : State) (ch : Chan) (b : Byte) :
    (s.putByte ch b).cfg = s.cfg := by cases ch <;> rfl
@[simp] theorem State.putByte_rxLost (s : State) (ch : Chan) (b : Byte) :
    (s.putByte ch b).rxLost = s.rxLost := by cases ch <;> rfl
@[simp] theorem State.putByte_dstate (s : State) (ch : Chan) (b : Byte) :
    (s.putByte ch b).dstate = s.dstate := by cases ch <;> rfl
@[simp] theorem State.putByte_idx (s : State) (ch : Chan) (b : Byte) :
    (s.putByte ch b).idx = s.idx := by cases ch <;> rfl
@[simp] theorem State.putByte_sum (s : State) (ch : Chan) (b : Byte) :
    (s.putByte ch b).sum = s.sum := by cases ch <;> rfl
@[simp] theorem State.putByte_memS (s : State) (ch : Chan) (b : Byte) :
    (s.putByte ch b).memS = s.memS := by cases ch <;> rfl
@[simp] theorem State.putByte_adcS (s : State) (ch : Chan) (b : Byte) :
    (s.putByte ch b).adcS = s.adcS := by cases ch <;> rfl
@[simp] theorem State.putByte_memP (s : State) (ch : Chan) (b : Byte) :
    (s.putByte ch b).memP = s.memP := by cases ch <;> rfl
@[simp] theorem State.putByte_adcP (s : State) (ch : Chan) (b : Byte) :
    (s.putByte ch b).adcP = s.adcP := by cases ch <;> rfl
@[simp] theorem State.putByte_updated (s : State) (ch : Chan) (b : Byte) :
    (s.putByte ch b).updated = s.updated := by cases ch <;> rfl
@[simp] theorem State.putByte_connected (s : State) (ch : Chan) (b : Byte) :
    (s.putByte ch b).connected = s.connected := by cases ch <;> rfl
@[simp] theorem State.putByte_nBytes (s : State) (ch : Chan) (b : Byte) :
    (s.putByte ch b).nBytes = s.nBytes := by cases ch <;> rfl
@[simp] theorem State.putByte_nGood (s : State) (ch : Chan) (b : Byte) :
    (s.putByte ch b).nGood = s.nGood := by cases ch <;> rfl
@[simp] theorem State.putByte_nBad (s : State) (ch : Chan) (b : Byte) :
    (s.putByte ch b).nBad = s.nBad := by cases ch <;> rfl
@[simp] theorem State.putByte_conts (s : State) (ch : Chan) (b : Byte) :
    (s.putByte ch b).conts = s.conts := by cases ch <;> rfl
@[simp] theorem State.putByte_roles (s : State) (ch : Chan) (b : Byte) :
    (s.putByte ch b).roles = s.roles := by cases ch <;> rfl
@[simp] theorem State.putByte_history (s : State) (ch : Chan) (b : Byte) :
    (s.putByte ch b).history = s.history := by cases ch <;> rfl
@[simp] theorem State.putByte_draws (s : State) (ch : Chan) (b : Byte) :
    (s.putByte ch b).draws = s.draws := by cases ch <;> rfl
@[simp] theorem State.putByte_port (s : State) (ch : Chan) (b : Byte) :
    (s.putByte ch b).port = s.port := by cases ch <;> rfl
@[simp] theorem State.putByte_programs (s : State) (ch : Chan) (b : Byte) :
    (s.putByte ch b).programs = s.programs := by cases ch <;> rfl
@[simp] theorem State.putByte_schedule (s : State) (ch : Chan) (b : Byte) :
    (s.putByte ch b).schedule = s.schedule := by cases ch <;> rfl

/-! ### `take` -/

@[simp] theorem State.take_cfg (s : State) (ch : Chan) (n : Nat) :
    (s.take ch n).2.cfg = s.cfg := by cases ch <;> rfl
@[simp] theorem State.take_rxLost (s : State) (ch : Chan) (n : Nat) :
    (s.take ch n).2.rxLost = s.rxLost := by cases ch <;> rfl
@[simp] theorem State.take_dstate (s : State) (ch : Chan) (n : Nat) :
    (s.take ch n).2.dstate = s.dstate := by cases ch <;> rfl
@[simp] theorem State.take_idx (s : State) (ch : Chan) (n : Nat) :
    (s.take ch n).2.idx = s.idx := by cases ch <;> rfl
@[simp] theorem State.take_sum (s : State) (ch : Chan) (n : Nat) :
    (s.take ch n).2.sum = s.sum := by cases ch <;> rfl
@[simp] theorem State.take_memS (s : State) (ch : Chan) (n : Nat) :
    (s.take ch n).2.memS = s.memS := by cases ch <;> rfl
@[simp] theorem State.take_adcS (s : State) (ch : Chan) (n : Nat) :
    (s.take ch n).2.adcS = s.adcS := by cases ch <;> rfl
@[simp] theorem State.take_memP (s : State) (ch : Chan) (n : Nat) :
    (s.take ch n).2.memP = s.memP := by cases ch <;> rfl
@[simp] theorem State.take_adcP (s : State) (ch : Chan) (n : Nat) :
    (s.take ch n).2.adcP = s.adcP := by cases ch <;> rfl
@[simp] theorem State.take_updated (s : State) (ch : Chan) (n : Nat) :
    (s.take ch n).2.updated = s.updated := by cases ch <;> rfl
@[simp] theorem State.take_connected (s : State) (ch : Chan) (n : Nat) :
    (s.take ch n).2.connected = s.connected := by cases ch <;> rfl
@[simp] theorem State.take_nBytes (s : State) (ch : Chan) (n : Nat) :
    (s.take ch n).2.nBytes = s.nBytes := by cases ch <;> rfl
@[simp] theorem State.take_nGood (s : State) (ch : Chan) (n : Nat) :
    (s.take ch n).2.nGood = s.nGood := by cases ch <;> rfl
@[simp] theorem State.take_nBad (s : State) (ch : Chan) (n : Nat) :
    (s.take ch n).2.nBad = s.nBad := by cases ch <;> rfl
@[simp] theorem State.take_conts (s : State) (ch : Chan) (n : Nat) :
    (s.take ch n).2.conts = s.conts := by cases ch <;> rfl
@[simp] theorem State.take_roles (s : State) (ch : Chan) (n : Nat) :
    (s.take ch n).2.roles = s.roles := by cases ch <;> rfl
@[simp] theorem State.take_history (s : State) (ch : Chan) (n : Nat) :
    (s.take ch n).2.history = s.history := by cases ch <;> rfl
@[simp] theorem State.take_draws (s : State) (ch : Chan) (n : Nat) :
    (s.take ch n).2.draws = s.draws := by cases ch <;> rfl
@[simp] theorem State.take_port (s : State) (ch : Chan) (n : Nat) :
    (s.take ch n).2.port = s.port := by cases ch <;> rfl
@[simp] theorem State.take_programs (s : State) (ch : Chan) (n : Nat) :
    (s.take ch n).2.programs = s.programs := by cases ch <;> rfl
@[simp] theorem State.take_schedule (s : State) (ch : Chan) (n : Nat) :
    (s.take ch n).2.schedule = s.schedule := by cases ch <;> rfl

/-! ### `signalWrite` -/

@[simp] theorem State.signalWrite_cfg (s : State) (ch : Chan) :
    (s.signalWrite ch).cfg = s.cfg := by cases ch <;> rfl
@[simp] theorem State.signalWrite_tx (s : State) (ch : Chan) :
    (s.signalWrite ch).tx = s.tx := by cases ch <;> rfl
@[simp] theorem State.signalWrite_rxLost (s : State) (ch : Chan) :
    (s.signalWrite ch).rxLost = s.rxLost := by cases ch <;> rfl
@[simp] theorem State.signalWrite_dstate (s : State) (ch : Chan) :
    (s.signalWrite ch).dstate = s.dstate := by cases ch <;> rfl
@[simp] theorem State.signalWrite_idx (s : State) (ch : Chan) :
    (s.signalWrite ch).idx = s.idx := by cases ch <;> rfl
@[simp] theorem State.signalWrite_sum (s : State) (ch : Chan) :
    (s.signalWrite ch).sum = s.sum := by cases ch <;> rfl
@[simp] theorem State.signalWrite_memS (s : State) (ch : Chan) :
    (s.signalWrite ch).memS = s.memS := by cases ch <;> rfl
@[simp] theorem State.signalWrite_adcS (s : State) (ch : Chan) :
    (s.signalWrite ch).adcS = s.adcS := by cases ch <;> rfl
@[simp] theorem State.signalWrite_memP (s : State) (ch : Chan) :
    (s.signalWrite ch).memP = s.memP := by cases ch <;> rfl
@[simp] theorem State.signalWrite_adcP (s : State) (ch : Chan) :
    (s.signalWrite ch).adcP = s.adcP := by cases ch <;> rfl
@[simp] theorem State.signalWrite_updated (s : State) (ch : Chan) :
    (s.signalWrite ch).updated = s.updated := by cases ch <;> rfl
@[simp] theorem State.signalWrite_connected (s : State) (ch : Chan) :
    (s.signalWrite ch).connected = s.connected := by cases ch <;> rfl
@[simp] theorem State.signalWrite_nBytes (s : State) (ch : Chan) :
    (s.signalWrite ch).nBytes = s.nBytes := by cases ch <;> rfl
@[simp] theorem State.signalWrite_nGood (s : State) (ch : Chan) :
    (s.signalWrite ch).nGood = s.nGood := by cases ch <;> rfl
@[simp] theorem State.signalWrite_nBad (s : State) (ch : Chan) :
    (s.signalWrite ch).nBad = s.nBad := by cases ch <;> rfl
@[simp] theorem State.signalWrite_conts (s : State) (ch : Chan) :
    (s.signalWrite ch).conts = s.conts := by cases ch <;> rfl
@[simp] theorem State.signalWrite_roles (s : State) (ch : Chan) :
    (s.signalWrite ch).roles = s.roles := by cases ch <;> rfl
@[simp] theorem State.signalWrite_history (s : State) (ch : Chan) :
    (s.signalWrite ch).history = s.history := by cases ch <;> rfl
@[simp] theorem State.signalWrite_draws (s : State) (ch : Chan) :
    (s.signalWrite ch).draws = s.draws := by cases ch <;> rfl
@[simp] theorem State.signalWrite_port (s : State) (ch : Chan) :
    (s.signalWrite ch).port = s.port := by cases ch <;> rfl
@[simp] theorem State.signalWrite_programs (s : State) (ch : Chan) :
    (s.signalWrite ch).programs = s.programs := by cases ch <;> rfl
@[simp] theorem State.signalWrite_schedule (s : State) (ch : Chan) :
    (s.signalWrite ch).schedule = s.schedule := by cases ch <;> rfl

/-! ### `clearWake` -/

@[simp] theorem State.clearWake_cfg (s : State) (ch : Chan) :
    (s.clearWake ch).cfg = s.cfg := by cases ch <;> rfl
@[simp] theorem State.clearWake_rxLost (s : State) (ch : Chan) :
    (s.clearWake ch).rxLost = s.rxLost := by cases ch <;> rfl
@[simp] theorem State.clearWake_dstate (s : State) (ch : Chan) :
    (s.clearWake ch).dstate = s.dstate := by cases ch <;> rfl
@[simp] theorem State.clearWake_idx (s : State) (ch : Chan) :
    (s.clearWake ch).idx = s.idx := by cases ch <;> rfl
@[simp] theorem State.clearWake_sum (s : State) (ch : Chan) :
    (s.clearWake ch).sum = s.sum := by cases ch <;> rfl
@[simp] theorem State.clearWake_memS (s : State) (ch : Chan) :
    (s.clearWake ch).memS = s.memS := by cases ch <;> rfl
@[simp] theorem State.clearWake_adcS (s : State) (ch : Chan) :
    (s.clearWake ch).adcS = s.adcS := by cases ch <;> rfl
@[simp] theorem State.clearWake_memP (s : State) (ch : Chan) :
    (s.clearWake ch).memP = s.memP := by cases ch <;> rfl
@[simp] theorem State.clearWake_adcP (s : State) (ch : Chan) :
    (s.clearWake ch).adcP = s.adcP := by cases ch <;> rfl
@[simp] theorem State.clearWake_updated (s : State) (ch : Chan) :
    (s.clearWake ch).updated = s.updated := by cases ch <;> rfl
@[simp] theorem State.clearWake_connected (s : State) (ch : Chan) :
    (s.clearWake ch).connected = s.connected := by cases ch <;> rfl
@[simp] theorem State.clearWake_nBytes (s : State) (ch : Chan) :
    (s.clearWake ch).nBytes = s.nBytes := by cases ch <;> rfl
@[simp] theorem State.clearWake_nGood (s : State) (ch : Chan) :
    (s.clearWake ch).nGood = s.nGood := by cases ch <;> rfl
@[simp] theorem State.clearWake_nBad (s : State) (ch : Chan) :
    (s.clearWake ch).nBad = s.nBad := by cases ch <;> rfl
@[simp] theorem State.clearWake_conts (s : State) (ch : Chan) :
    (s.clearWake ch).conts = s.conts := by cases ch <;> rfl
@[simp] theorem State.clearWake_roles (s : State) (ch : Chan) :
    (s.clearWake ch).roles = s.roles := by cases ch <;> rfl
@[simp] theorem State.clearWake_history (s : State) (ch : Chan) :
    (s.clearWake ch).history = s.history := by cases ch <;> rfl
@[simp] theorem State.clearWake_draws (s : State) (ch : Chan) :
    (s.clearWake ch).draws = s.draws := by cases ch <;> rfl
@[simp] theorem State.clearWake_port (s : State) (ch : Chan) :
    (s.clearWake ch).port = s.port := by cases ch <;> rfl
@[simp] theorem State.clearWake_programs (s : State) (ch : Chan) :
    (s.clearWake ch).programs = s.programs := by cases ch <;> rfl
@[simp] theorem State.clearWake_schedule (s : State) (ch : Chan) :
    (s.clearWake ch).schedule = s.schedule := by cases ch <;> rfl

/-! ### `txHyst` -/

@[simp] theorem State.txHyst_cfg (s : State) (f0 f1 : Nat) :
    (s.txHyst f0 f1).cfg = s.cfg := by unfold State.txHyst; split <;> rfl
@[simp] theorem State.txHyst_rx (s : State) (f0 f1 : Nat) :
    (s.txHyst f0 f1).rx = s.rx := by unfold State.txHyst; split <;> rfl
@[simp] theorem State.txHyst_rxLost (s : State) (f0 f1 : Nat) :
    (s.txHyst f0 f1).rxLost = s.rxLost := by unfold State.txHyst; split <;> rfl
@[simp] theorem State.txHyst_dstate (s : State) (f0 f1 : Nat) :
    (s.txHyst f0 f1).dstate = s.dstate := by unfold State.txHyst; split <;> rfl
@[simp] theorem State.txHyst_idx (s : State) (f0 f1 : Nat) :
    (s.txHyst f0 f1).idx = s.idx := by unfold State.txHyst; split <;> rfl
@[simp] theorem State.txHyst_sum (s : State) (f0 f1 : Nat) :
    (s.txHyst f0 f1).sum = s.sum := by unfold State.txHyst; split <;> rfl
@[simp] theorem State.txHyst_memS (s : State) (f0 f1 : Nat) :
    (s.txHyst f0 f1).memS = s.memS := by unfold State.txHyst; split <;> rfl
@[simp] theorem State.txHyst_adcS (s : State) (f0 f1 : Nat) :
    (s.txHyst f0 f1).adcS = s.adcS := by unfold State.txHyst; split <;> rfl
@[simp] theorem State.txHyst_memP (s : State) (f0 f1 : Nat) :
    (s.txHyst f0 f1).memP = s.memP := by unfold State.txHyst; split <;> rfl
@[simp] theorem State.txHyst_adcP (s : State) (f0 f1 : Nat) :
    (s.txHyst f0 f1).adcP = s.adcP := by unfold State.txHyst; split <;> rfl
@[simp] theorem State.txHyst_updated (s : State) (f0 f1 : Nat) :
    (s.txHyst f0 f1).updated = s.updated := by unfold State.txHyst; split <;> rfl
@[simp] theorem State.txHyst_connected (s : State) (f0 f1 : Nat) :
    (s.txHyst f0 f1).connected = s.connected := by unfold State.txHyst; split <;> rfl
@[simp] theorem State.txHyst_nBytes (s : State) (f0 f1 : Nat) :
    (s.txHyst f0 f1).nBytes = s.nBytes := by unfold State.txHyst; split <;> rfl
@[simp] theorem State.txHyst_nGood (s : State) (f0 f1 : Nat) :
    (s.txHyst f0 f1).nGood = s.nGood := by unfold State.txHyst; split <;> rfl
@[simp] theorem State.txHyst_nBad (s : State) (f0 f1 : Nat) :
    (s.txHyst f0 f1).nBad = s.nBad := by unfold State.txHyst; split <;> rfl
@[simp] theorem State.txHyst_conts (s : State) (f0 f1 : Nat) :
    (s.txHyst f0 f1).conts = s.conts := by unfold State.txHyst; split <;> rfl
@[simp] theorem State.txHyst_roles (s : State) (f0 f1 : Nat) :
    (s.txHyst f0 f1).roles = s.roles := by unfold State.txHyst; split <;> rfl
@[simp] theorem State.txHyst_history (s : State) (f0 f1 : Nat) :
    (s.txHyst f0 f1).history = s.history := by unfold State.txHyst; split <;> rfl
@[simp] theorem State.txHyst_draws (s : State) (f0 f1 : Nat) :
    (s.txHyst f0 f1).draws = s.draws := by unfold State.txHyst; split <;> rfl
@[simp] theorem State.txHyst_port (s : State) (f0 f1 : Nat) :
    (s.txHyst f0 f1).port = s.port := by unfold State.txHyst; split <;> rfl
@[simp] theorem State.txHyst_programs (s : State) (f0 f1 : Nat) :
    (s.txHyst f0 f1).programs = s.programs := by unfold State.txHyst; split <;> rfl
@[simp] theorem State.txHyst_schedule (s : State) (f0 f1 : Nat) :
    (s.txHyst f0 f1).schedule = s.schedule := by unfold State.txHyst; split <;> rfl

/-! ### `signalRemoval` -/

@[simp] theorem State.signalRemoval_cfg (s : State) (ch : Chan) (f0 f1 : Nat) :
    (s.signalRemoval ch f0 f1).cfg = s.cfg := by cases ch <;> simp [State.signalRemoval]
@[simp] theorem State.signalRemoval_rx (s : State) (ch : Chan) (f0 f1 : Nat) :
    (s.signalRemoval ch f0 f1).rx = s.rx := by cases ch <;> simp [State.signalRemoval]
@[simp] theorem State.signalRemoval_rxLost (s : State) (ch : Chan) (f0 f1 : Nat) :
    (s.signalRemoval ch f0 f1).rxLost = s.rxLost := by cases ch <;> simp [State.signalRemoval]
@[simp] theorem State.signalRemoval_dstate (s : State) (ch : Chan) (f0 f1 : Nat) :
    (s.signalRemoval ch f0 f1).dstate = s.dstate := by cases ch <;> simp [State.signalRemoval]
@[simp] theorem State.signalRemoval_idx (s : State) (ch : Chan) (f0 f1 : Nat) :
    (s.signalRemoval ch f0 f1).idx = s.idx := by cases ch <;> simp [State.signalRemoval]
@[simp] theorem State.signalRemoval_sum (s : State) (ch : Chan) (f0 f1 : Nat) :
    (s.signalRemoval ch f0 f1).sum = s.sum := by cases ch <;> simp [State.signalRemoval]
@[simp] theorem State.signalRemoval_memS (s : State) (ch : Chan) (f0 f1 : Nat) :
    (s.signalRemoval ch f0 f1).memS = s.memS := by cases ch <;> simp [State.signalRemoval]
@[simp] theorem State.signalRemoval_adcS (s : State) (ch : Chan) (f0 f1 : Nat) :
    (s.signalRemoval ch f0 f1).adcS = s.adcS := by cases ch <;> simp [State.signalRemoval]
@[simp] theorem State.signalRemoval_memP (s : State) (ch : Chan) (f0 f1 : Nat) :
    (s.signalRemoval ch f0 f1).memP = s.memP := by cases ch <;> simp [State.signalRemoval]
@[simp] theorem State.signalRemoval_adcP (s : State) (ch : Chan) (f0 f1 : Nat) :
    (s.signalRemoval ch f0 f1).adcP = s.adcP := by cases ch <;> simp [State.signalRemoval]
@[simp] theorem State.signalRemoval_updated (s : State) (ch : Chan) (f0 f1 : Nat) :
    (s.signalRemoval ch f0 f1).updated = s.updated := by cases ch <;> simp [State.signalRemoval]
@[simp] theorem State.signalRemoval_connected (s : State) (ch : Chan) (f0 f1 : Nat) :
    (s.signalRemoval ch f0 f1).connected = s.connected := by cases ch <;> simp [State.signalRemoval]
@[simp] theorem State.signalRemoval_nBytes (s : State) (ch : Chan) (f0 f1 : Nat) :
    (s.signalRemoval ch f0 f1).nBytes = s.nBytes := by cases ch <;> simp [State.signalRemoval]
@[simp] theorem State.signalRemoval_nGood (s : State) (ch : Chan) (f0 f1 : Nat) :
    (s.signalRemoval ch f0 f1).nGood = s.nGood := by cases ch <;> simp [State.signalRemoval]
@[simp] theorem State.signalRemoval_nBad (s : State) (ch : Chan) (f0 f1 : Nat) :
    (s.signalRemoval ch f0 f1).nBad = s.nBad := by cases ch <;> simp [State.signalRemoval]
@[simp] theorem State.signalRemoval_conts (s : State) (ch : Chan) (f0 f1 : Nat) :
    (s.signalRemoval ch f0 f1).conts = s.conts := by cases ch <;> simp [State.signalRemoval]
@[simp] theorem State.signalRemoval_roles (s : State) (ch : Chan) (f0 f1 : Nat) :
    (s.signalRemoval ch f0 f1).roles = s.roles := by cases ch <;> simp [State.signalRemoval]
@[simp] theorem State.signalRemoval_history (s : State) (ch : Chan) (f0 f1 : Nat) :
    (s.signalRemoval ch f0 f1).history = s.history := by cases ch <;> simp [State.signalRemoval]
@[simp] theorem State.signalRemoval_draws (s : State) (ch : Chan) (f0 f1 : Nat) :
    (s.signalRemoval ch f0 f1).draws = s.draws := by cases ch <;> simp [State.signalRemoval]
@[simp] theorem State.signalRemoval_port (s : State) (ch : Chan) (f0 f1 : Nat) :
    (s.signalRemoval ch f0 f1).port = s.port := by cases ch <;> simp [State.signalRemoval]
@[simp] theorem State.signalRemoval_programs (s : State) (ch : Chan) (f0 f1 : Nat) :
    (s.signalRemoval ch f0 f1).programs = s.programs := by cases ch <;> simp [State.signalRemoval]
@[simp] theorem State.signalRemoval_schedule (s : State) (ch : Chan) (f0 f1 : Nat) :
    (s.signalRemoval ch f0 f1).schedule = s.schedule := by cases ch <;> simp [State.signalRemoval]

/-! ### `writeChunk` -/

@[simp] theorem State.writeChunk_cfg (s : State) (n : Nat) :
    (s.writeChunk n).cfg = s.cfg := rfl
@[simp] theorem State.writeChunk_rx (s : State) (n : Nat) :
    (s.writeChunk n).rx = s.rx := rfl
@[simp] theorem State.writeChunk_rxLost (s : State) (n : Nat) :
    (s.writeChunk n).rxLost = s.rxLost := rfl
@[simp] theorem State.writeChunk_dstate (s : State) (n : Nat) :
    (s.writeChunk n).dstate = s.dstate := rfl
@[simp] theorem State.writeChunk_idx (s : State) (n : Nat) :
    (s.writeChunk n).idx = s.idx := rfl
@[simp] theorem State.writeChunk_sum (s : State) (n : Nat) :
    (s.writeChunk n).sum = s.sum := rfl
@[simp] theorem State.writeChunk_memS (s : State) (n : Nat) :
    (s.writeChunk n).memS = s.memS := rfl
@[simp] theorem State.writeChunk_adcS (s : State) (n : Nat) :
    (s.writeChunk n).adcS = s.adcS := rfl
@[simp] theorem State.writeChunk_memP (s : State) (n : Nat) :
    (s.writeChunk n).memP = s.memP := rfl
@[simp] theorem State.writeChunk_adcP (s : State) (n : Nat) :
    (s.writeChunk n).adcP = s.adcP := rfl
@[simp] theorem State.writeChunk_updated (s : State) (n : Nat) :
    (s.writeChunk n).updated = s.updated := rfl
@[simp] theorem State.writeChunk_connected (s : State) (n : Nat) :
    (s.writeChunk n).connected = s.connected := rfl
@[simp] theorem State.writeChunk_nBytes (s : State) (n : Nat) :
    (s.writeChunk n).nBytes = s.nBytes := rfl
@[simp] theorem State.writeChunk_nGood (s : State) (n : Nat) :
    (s.writeChunk n).nGood = s.nGood := rfl
@[simp] theorem State.writeChunk_nBad (s : State) (n : Nat) :
    (s.writeChunk n).nBad = s.nBad := rfl
@[simp] theorem State.writeChunk_conts (s : State) (n : Nat) :
    (s.writeChunk n).conts = s.conts := rfl
@[simp] theorem State.writeChunk_roles (s : State) (n : Nat) :
    (s.writeChunk n).roles = s.roles := rfl
@[simp] theorem State.writeChunk_draws (s : State) (n : Nat) :
    (s.writeChunk n).draws = s.draws := rfl
@[simp] theorem State.writeChunk_programs (s : State) (n : Nat) :
    (s.writeChunk n).programs = s.programs := rfl
@[simp] theorem State.writeChunk_schedule (s : State) (n : Nat) :
    (s.writeChunk n).schedule = s.schedule := rfl

/-! ### `issue` -/

@[simp] theorem State.issue_cfg (s : State) (a : Agent) (q : Request) (l : List Request) :
    (s.issue a q l).cfg = s.cfg := rfl
@[simp] theorem State.issue_rx (s : State) (a : Agent) (q : Request) (l : List Request) :
    (s.issue a q l).rx = s.rx := rfl
@[simp] theorem State.issue_tx (s : State) (a : Agent) (q : Request) (l : List Request) :
    (s.issue a q l).tx = s.tx := rfl
@[simp] theorem State.issue_rxLost (s : State) (a : Agent) (q : Request) (l : List Request) :
    (s.issue a q l).rxLost = s.rxLost := rfl
@[simp] theorem State.issue_dstate (s : State) (a : Agent) (q : Request) (l : List Request) :
    (s.issue a q l).dstate = s.dstate := rfl
@[simp] theorem State.issue_idx (s : State) (a : Agent) (q : Request) (l : List Request) :
    (s.issue a q l).idx = s.idx := rfl
@[simp] theorem State.issue_sum (s : State) (a : Agent) (q : Request) (l : List Request) :
    (s.issue a q l).sum = s.sum := rfl
@[simp] theorem State.issue_memS (s : State) (a : Agent) (q : Request) (l : List Request) :
    (s.issue a q l).memS = s.memS := rfl
@[simp] theorem State.issue_adcS (s : State) (a : Agent) (q : Request) (l : List Request) :
    (s.issue a q l).adcS = s.adcS := rfl
@[simp] theorem State.issue_memP (s : State) (a : Agent) (q : Request) (l : List Request) :
    (s.issue a q l).memP = s.memP := rfl
@[simp] theorem State.issue_adcP (s : State) (a : Agent) (q : Request) (l : List Request) :
    (s.issue a q l).adcP = s.adcP := rfl
@[simp] theorem State.issue_updated (s : State) (a : Agent) (q : Request) (l : List Request) :
    (s.issue a q l).updated = s.updated := rfl
@[simp] theorem State.issue_connected (s : State) (a : Agent) (q : Request) (l : List Request) :
    (s.issue a q l).connected = s.connected := rfl
@[simp] theorem State.issue_nBytes (s : State) (a : Agent) (q : Request) (l : List Request) :
    (s.issue a q l).nBytes = s.nBytes := rfl
@[simp] theorem State.issue_nGood (s : State) (a : Agent) (q : Request) (l : List Request) :
    (s.issue a q l).nGood = s.nGood := rfl
@[simp] theorem State.issue_nBad (s : State) (a : Agent) (q : Request) (l : List Request) :
    (s.issue a q l).nBad = s.nBad := rfl
@[simp] theorem State.issue_conts (s : State) (a : Agent) (q : Request) (l : List Request) :
    (s.issue a q l).conts = s.conts := rfl
@[simp] theorem State.issue_roles (s : State) (a : Agent) (q : Request) (l : List Request) :
    (s.issue a q l).roles = s.roles := rfl
@[simp] theorem State.issue_draws (s : State) (a : Agent) (q : Request) (l : List Request) :
    (s.issue a q l).draws = s.draws := rfl
@[simp] theorem State.issue_schedule (s : State) (a : Agent) (q : Request) (l : List Request) :
    (s.issue a q l).schedule = s.schedule := rfl

/-! ### `reenter` -/

@[simp] theorem State.reenter_cfg (s : State) (a : Agent) (k : Continuation) :
    (s.reenter a k).cfg = s.cfg := rfl
@[simp] theorem State.reenter_rx (s : State) (a : Agent) (k : Continuation) :
    (s.reenter a k).rx = s.rx := rfl
@[simp] theorem State.reenter_tx (s : State) (a : Agent) (k : Continuation) :
    (s.reenter a k).tx = s.tx := rfl
@[simp] theorem State.reenter_rxLost (s : State) (a : Agent) (k : Continuation) :
    (s.reenter a k).rxLost = s.rxLost := rfl
@[simp] theorem State.reenter_dstate (s : State) (a : Agent) (k : Continuation) :
    (s.reenter a k).dstate = s.dstate := rfl
@[simp] theorem State.reenter_idx (s : State) (a : Agent) (k : Continuation) :
    (s.reenter a k).idx = s.idx := rfl
@[simp] theorem State.reenter_sum (s : State) (a : Agent) (k : Continuation) :
    (s.reenter a k).sum = s.sum := rfl
@[simp] theorem State.reenter_memS (s : State) (a : Agent) (k : Continuation) :
    (s.reenter a k).memS = s.memS := rfl
@[simp] theorem State.reenter_adcS (s : State) (a : Agent) (k : Continuation) :
    (s.reenter a k).adcS = s.adcS := rfl
@[simp] theorem State.reenter_memP (s : State) (a : Agent) (k : Continuation) :
    (s.reenter a k).memP = s.memP := rfl
@[simp] theorem State.reenter_adcP (s : State) (a : Agent) (k : Continuation) :
    (s.reenter a k).adcP = s.adcP := rfl
@[simp] theorem State.reenter_updated (s : State) (a : Agent) (k : Continuation) :
    (s.reenter a k).updated = s.updated := rfl
@[simp] theorem State.reenter_connected (s : State) (a : Agent) (k : Continuation) :
    (s.reenter a k).connected = s.connected := rfl
@[simp] theorem State.reenter_nBytes (s : State) (a : Agent) (k : Continuation) :
    (s.reenter a k).nBytes = s.nBytes := rfl
@[simp] theorem State.reenter_nGood (s : State) (a : Agent) (k : Continuation) :
    (s.reenter a k).nGood = s.nGood := rfl
@[simp] theorem State.reenter_nBad (s : State) (a : Agent) (k : Continuation) :
    (s.reenter a k).nBad = s.nBad := rfl
@[simp] theorem State.reenter_conts (s : State) (a : Agent) (k : Continuation) :
    (s.reenter a k).conts = s.conts := rfl
@[simp] theorem State.reenter_roles (s : State) (a : Agent) (k : Continuation) :
    (s.reenter a k).roles = s.roles := rfl
@[simp] theorem State.reenter_history (s : State) (a : Agent) (k : Continuation) :
    (s.reenter a k).history = s.history := rfl
@[simp] theorem State.reenter_draws (s : State) (a : Agent) (k : Continuation) :
    (s.reenter a k).draws = s.draws := rfl
@[simp] theorem State.reenter_programs (s : State) (a : Agent) (k : Continuation) :
    (s.reenter a k).programs = s.programs := rfl
@[simp] theorem State.reenter_schedule (s : State) (a : Agent) (k : Continuation) :
    (s.reenter a k).schedule = s.schedule := rfl

/-! ### `resumed` -/

@[simp] theorem State.resumed_cfg (s : State) (a : Agent) (ch : Chan) :
    (s.resumed a ch).cfg = s.cfg := by cases ch <;> rfl
@[simp] theorem State.resumed_rxLost (s : State) (a : Agent) (ch : Chan) :
    (s.resumed a ch).rxLost = s.rxLost := by cases ch <;> rfl
@[simp] theorem State.resumed_dstate (s : State) (a : Agent) (ch : Chan) :
    (s.resumed a ch).dstate = s.dstate := by cases ch <;> rfl
@[simp] theorem State.resumed_idx (s : State) (a : Agent) (ch : Chan) :
    (s.resumed a ch).idx = s.idx := by cases ch <;> rfl
@[simp] theorem State.resumed_sum (s : State) (a : Agent) (ch : Chan) :
    (s.resumed a ch).sum = s.sum := by cases ch <;> rfl
@[simp] theorem State.resumed_memS (s : State) (a : Agent) (ch : Chan) :
    (s.resumed a ch).memS = s.memS := by cases ch <;> rfl
@[simp] theorem State.resumed_adcS (s : State) (a : Agent) (ch : Chan) :
    (s.resumed a ch).adcS = s.adcS := by cases ch <;> rfl
@[simp] theorem State.resumed_memP (s : State) (a : Agent) (ch : Chan) :
    (s.resumed a ch).memP = s.memP := by cases ch <;> rfl
@[simp] theorem State.resumed_adcP (s : State) (a : Agent) (ch : Chan) :
    (s.resumed a ch).adcP = s.adcP := by cases ch <;> rfl
@[simp] theorem State.resumed_updated (s : State) (a : Agent) (ch : Chan) :
    (s.resumed a ch).updated = s.updated := by cases ch <;> rfl
@[simp] theorem State.resumed_connected (s : State) (a : Agent) (ch : Chan) :
    (s.resumed a ch).connected = s.connected := by cases ch <;> rfl
@[simp] theorem State.resumed_nBytes (s : State) (a : Agent) (ch : Chan) :
    (s.resumed a ch).nBytes = s.nBytes := by cases ch <;> rfl
@[simp] theorem State.resumed_nGood (s : State) (a : Agent) (ch : Chan) :
    (s.resumed a ch).nGood = s.nGood := by cases ch <;> rfl
@[simp] theorem State.resumed_nBad (s : State) (a : Agent) (ch : Chan) :
    (s.resumed a ch).nBad = s.nBad := by cases ch <;> rfl
@[simp] theorem State.resumed_conts (s : State) (a : Agent) (ch : Chan) :
    (s.resumed a ch).conts = s.conts := by cases ch <;> rfl
@[simp] theorem State.resumed_roles (s : State) (a : Agent) (ch : Chan) :
    (s.resumed a ch).roles = s.roles := by cases ch <;> rfl
@[simp] theorem State.resumed_draws (s : State) (a : Agent) (ch : Chan) :
    (s.resumed a ch).draws = s.draws := by cases ch <;> rfl
@[simp] theorem State.resumed_port (s : State) (a : Agent) (ch : Chan) :
    (s.resumed a ch).port = s.port := by cases ch <;> rfl
@[simp] theorem State.resumed_programs (s : State) (a : Agent) (ch : Chan) :
    (s.resumed a ch).programs = s.programs := by cases ch <;> rfl
@[simp] theorem State.resumed_schedule (s : State) (a : Agent) (ch : Chan) :
    (s.resumed a ch).schedule = s.schedule := by cases ch <;> rfl

/-! ### What the updates put in place -/

@[simp] theorem State.answer_history (s : State) (st : Status) (r : Word) (d : List Byte) :
    (s.answer st r d).history =
      s.history ++ [.response s.port.agent s.port.word { status := st, result := r, data := d }] := rfl
@[simp] theorem State.answer_conts (s : State) (st : Status) (r : Word) (d : List Byte) :
    (s.answer st r d).conts = s.conts.set s.port.agent none := rfl
@[simp] theorem State.answer_draws (s : State) (st : Status) (r : Word) (d : List Byte) :
    (s.answer st r d).draws = s.draws + 1 := rfl
@[simp] theorem State.suspend_conts (s : State) (w : Option Chan) :
    (s.suspend w).conts = s.conts.set s.port.agent
      (some { word := s.port.word, done := s.port.done, rest := s.port.rest, waiting := w }) := rfl
@[simp] theorem State.suspend_draws (s : State) (w : Option Chan) :
    (s.suspend w).draws = s.draws + 1 := rfl
@[simp] theorem State.emit_history (s : State) (e : Event) :
    (s.emit e).history = s.history ++ [e] := rfl
@[simp] theorem State.meets_history (s : State) (c : Condition) :
    (s.meets c).history = s.history ++ [.condition c] := rfl
@[simp] theorem State.issue_port (s : State) (a : Agent) (q : Request) (l : List Request) :
    (s.issue a q l).port = { agent := a, word := q.word, done := 0, rest := q.data } := rfl
@[simp] theorem State.issue_programs (s : State) (a : Agent) (q : Request) (l : List Request) :
    (s.issue a q l).programs = s.programs.set a l := rfl
@[simp] theorem State.issue_history (s : State) (a : Agent) (q : Request) (l : List Request) :
    (s.issue a q l).history = s.history ++ [.request a q.word q.data] := rfl
@[simp] theorem State.reenter_port (s : State) (a : Agent) (k : Continuation) :
    (s.reenter a k).port = { agent := a, word := k.word, done := k.done, rest := k.rest } := rfl
@[simp] theorem State.resumed_history (s : State) (a : Agent) (ch : Chan) :
    (s.resumed a ch).history = s.history ++ [.resume a ch] := by cases ch <;> rfl

/-! ### Channels by name -/

@[simp] theorem State.chan_rx (s : State) : s.chan .rx = s.rx := rfl
@[simp] theorem State.chan_tx (s : State) : s.chan .tx = s.tx := rfl
@[simp] theorem State.setChan_rx_rx (s : State) (c : Channel) : (s.setChan .rx c).rx = c := rfl
@[simp] theorem State.setChan_rx_tx (s : State) (c : Channel) : (s.setChan .rx c).tx = s.tx := rfl
@[simp] theorem State.setChan_tx_tx (s : State) (c : Channel) : (s.setChan .tx c).tx = c := rfl
@[simp] theorem State.setChan_tx_rx (s : State) (c : Channel) : (s.setChan .tx c).rx = s.rx := rfl
@[simp] theorem State.signalWrite_rx_rx (s : State) :
    (s.signalWrite .rx).rx = s.rx.withWake true := rfl
@[simp] theorem State.signalWrite_onTx (s : State) : s.signalWrite .tx = s := rfl
@[simp] theorem State.signalRemoval_onRx (s : State) (f0 f1 : Nat) : s.signalRemoval .rx f0 f1 = s := rfl
@[simp] theorem State.signalRemoval_onTx (s : State) (f0 f1 : Nat) :
    s.signalRemoval .tx f0 f1 = s.txHyst f0 f1 := rfl
@[simp] theorem Config.cap_rx (cfg : Config) : Config.cap cfg .rx = cfg.cRx := rfl
@[simp] theorem Config.cap_tx (cfg : Config) : Config.cap cfg .tx = cfg.cTx := rfl
@[simp] theorem State.chan_setChan (s : State) (ch : Chan) (c : Channel) :
    (s.setChan ch c).chan ch = c := by cases ch <;> rfl

/-! ### One value for each agent, one holder for each role -/

@[simp] theorem PerAgent.get_set_same {α : Type} (p : PerAgent α) (a : Agent) (x : α) :
    (p.set a x).get a = x := by cases a <;> rfl

theorem PerAgent.get_set_other {α : Type} (p : PerAgent α) {a b : Agent} (x : α) (h : b ≠ a) :
    (p.set a x).get b = p.get b := by
  cases a <;> cases b <;> first | rfl | exact absurd rfl h

theorem PerAgent.get_set {α : Type} (p : PerAgent α) (a b : Agent) (x : α) :
    (p.set a x).get b = if b = a then x else p.get b := by
  cases a <;> cases b <;> rfl

@[simp] theorem PerAgent.set_get_self {α : Type} (p : PerAgent α) (a : Agent) :
    p.set a (p.get a) = p := by cases a <;> rfl

@[simp] theorem PerAgent.set_set {α : Type} (p : PerAgent α) (a : Agent) (x y : α) :
    (p.set a x).set a y = p.set a y := by cases a <;> rfl

@[simp] theorem PerAgent.get_all {α : Type} (a : Agent) (x : α) : (PerAgent.all x).get a = x := by
  cases a <;> rfl

@[simp] theorem Roles.get_give_same (r : Roles) (role : Role) (a : Agent) :
    (r.give role a).get role = some a := by cases role <;> rfl

theorem Roles.get_give_other (r : Roles) {role other : Role} (a : Agent) (h : other ≠ role) :
    (r.give role a).get other = r.get other := by
  cases role <;> cases other <;> first | rfl | exact absurd rfl h

/-- Giving a role to the agent that holds it changes nothing. -/
theorem Roles.give_of_get (r : Roles) (role : Role) (a : Agent) (h : r.get role = some a) :
    r.give role a = r := by
  cases role <;> simp_all [Roles.give, Roles.get] <;> cases r <;> simp_all

end Sys2Proof.Machine
end

