-- ==== Sys2Proof/Laws/Memory.lean ====
section
/-! SUPPORT. The laws of the arrays (20_memory R50) and of the channels (10_state R25, 40_channel R100, R101). -/

namespace Sys2Proof.Machine

/-! ### Arrays -/

/-- A read after a write: the value at the index written, the old value elsewhere. -/
theorem Memory.read?_write {w : Nat} (m : Memory w) (a b : Nat) (v : BitVec w) :
    Memory.read? (Memory.write m a v) b = if b = a then some v else Memory.read? m b := by
  induction m with
  | nil => simp [Memory.write, Memory.read?]
  | cons c rest ih =>
    obtain ⟨k, u⟩ := c
    simp only [Memory.write]
    split
    · simp [Memory.read?]
    · split
      · rename_i h; subst h
        by_cases hb : b = a <;> simp [Memory.read?, hb]
      · by_cases hk : b = k
        · subst hk; simp [Memory.read?, show ¬ b = a by omega]
        · simp [Memory.read?, hk, ih]

/-- The indexes a write lists are those listed before and the index written. -/
theorem Memory.mem_write {w : Nat} {m : Memory w} {a : Nat} {v : BitVec w} {c : Nat × BitVec w}
    (h : c ∈ Memory.write m a v) : c.1 = a ∨ c ∈ m := by
  induction m with
  | nil => simp [Memory.write] at h; simp [h]
  | cons d rest ih =>
    simp only [Memory.write] at h
    split at h
    · rcases List.mem_cons.1 h with rfl | h
      · exact .inl rfl
      · exact .inr h
    · split at h
      · rcases List.mem_cons.1 h with rfl | h
        · exact .inl rfl
        · exact .inr (List.mem_cons_of_mem _ h)
      · rcases List.mem_cons.1 h with rfl | h
        · exact .inr (List.mem_cons_self ..)
        · exact (ih h).imp id (List.mem_cons_of_mem _)

/-- A write keeps the canonical form. -/
theorem Memory.write_wf {w : Nat} {size : Nat} {m : Memory w} {a : Nat} (v : BitVec w)
    (hm : Memory.wf size m) (ha : a < size) : Memory.wf size (Memory.write m a v) := by
  refine ⟨?_, fun c hc => ?_⟩
  · obtain ⟨hs, -⟩ := hm
    induction m with
    | nil => simp [Memory.write]
    | cons d rest ih =>
      simp only [List.map_cons, List.pairwise_cons] at hs
      obtain ⟨hd, hr⟩ := hs
      simp only [Memory.write]
      split
      · rename_i h
        simp only [List.map_cons, List.pairwise_cons, List.mem_cons]
        refine ⟨?_, hd, hr⟩
        rintro b (rfl | hb)
        · exact h
        · exact lt_trans h (hd b hb)
      · split
        · rename_i h; subst h
          simpa only [List.map_cons, List.pairwise_cons] using And.intro hd hr
        · rename_i h1 h2
          simp only [List.map_cons, List.pairwise_cons]
          refine ⟨fun b hb => ?_, ih hr⟩
          obtain ⟨c, hc, rfl⟩ := List.mem_map.1 hb
          rcases Memory.mem_write hc with h | h
          · omega
          · exact hd _ (List.mem_map_of_mem h)
  · rcases Memory.mem_write hc with h | h
    · omega
    · exact hm.2 c h

/-- The memory right after reset has the canonical form: it lists nothing (R39). -/
theorem resetWith_memories_wf (cfg : Config) :
    Memory.wf cfg.cRx (State.resetWith cfg).rx.buf ∧ Memory.wf cfg.cTx (State.resetWith cfg).tx.buf ∧
      Memory.wf bodyLen (State.resetWith cfg).memS ∧ Memory.wf adcN (State.resetWith cfg).adcS ∧
      Memory.wf bodyLen (State.resetWith cfg).memP ∧ Memory.wf adcN (State.resetWith cfg).adcP := by
  simp [State.resetWith, Channel.empty, Memory.wf]

/-- Reading an index that has been written gives the value written, whatever the free draw. -/
theorem Memory.fetch_of_read? {w : Nat} {free : Nat → BitVec w} {m : Memory w} {a : Nat} {v : BitVec w}
    (h : Memory.read? m a = some v) : Memory.fetch free m a = v := by
  simp [Memory.fetch, h]

/-- Writing below `n` or at `n` extends what is written below. -/
theorem Memory.writtenBelow_write {w : Nat} {m : Memory w} {n : Nat} (a : Nat) (v : BitVec w)
    (h : Memory.WrittenBelow m n) : Memory.WrittenBelow (Memory.write m a v) n := by
  intro b hb
  rw [Memory.read?_write]
  split
  · rfl
  · exact h b hb

theorem Memory.writtenBelow_succ {w : Nat} {m : Memory w} {n : Nat} (v : BitVec w)
    (h : Memory.WrittenBelow m n) : Memory.WrittenBelow (Memory.write m n v) (n + 1) := by
  intro b hb
  rw [Memory.read?_write]
  split
  · rfl
  · exact h b (by omega)

/-! ### Channels -/

@[simp] theorem Channel.contents_length (cap : Nat) (c : Channel) :
    (c.contents cap).length = c.count := by simp [Channel.contents]

@[simp] theorem Channel.withWake_contents (cap : Nat) (c : Channel) (b : Bool) :
    (c.withWake b).contents cap = c.contents cap := rfl

@[simp] theorem Channel.withWake_count (c : Channel) (b : Bool) : (c.withWake b).count = c.count := rfl

@[simp] theorem Channel.withWake_wake (c : Channel) (b : Bool) : (c.withWake b).wake = b := rfl

theorem Channel.withWake_ok {cap : Nat} {c : Channel} (b : Bool) (h : c.Ok cap) :
    (c.withWake b).Ok cap := h

@[simp] theorem Channel.put_count (cap : Nat) (c : Channel) (b : Byte) :
    (c.put cap b).count = c.count + 1 := rfl

@[simp] theorem Channel.put_wake (cap : Nat) (c : Channel) (b : Byte) : (c.put cap b).wake = c.wake := rfl

@[simp] theorem Channel.drop1_count (cap : Nat) (c : Channel) : (c.drop1 cap).count = c.count - 1 := rfl

@[simp] theorem Channel.drop1_wake (cap : Nat) (c : Channel) : (c.drop1 cap).wake = c.wake := rfl

/-- Two places of a ring fewer than `cap` apart are different cells. -/
theorem ring_ne {cap rd i j : Nat} (hij : i < j) (hj : j - i < cap) :
    (rd + i) % cap ≠ (rd + j) % cap := by
  intro h
  have h1 : rd + i ≡ rd + j [MOD cap] := h
  have h2 : i ≡ j [MOD cap] := Nat.ModEq.add_left_cancel' rd h1
  have h3 : cap ∣ j - i := (Nat.modEq_iff_dvd' hij.le).1 h2
  exact absurd (Nat.le_of_dvd (by omega) h3) (by omega)

/-- `ChPut` appends its byte to the contents (R100). -/
theorem Channel.put_contents {cap : Nat} {c : Channel} (b : Byte) (h : c.Ok cap) (hc : c.count < cap) :
    (c.put cap b).contents cap = c.contents cap ++ [some b] := by
  obtain ⟨-, -, hwr, -, -⟩ := h
  simp only [Channel.contents, Channel.put, List.range_succ, List.map_append, List.map_cons,
    List.map_nil, Memory.read?_write]
  congr 1
  · refine List.map_congr_left fun i hi => ?_
    have hi := List.mem_range.1 hi
    rw [if_neg]
    rw [hwr]
    exact ring_ne hi (by omega)
  · simp [hwr]

/-- `ChPut` keeps the channel's invariant (R100). -/
theorem Channel.put_ok {cap : Nat} {c : Channel} (b : Byte) (h : c.Ok cap) (hc : c.count < cap) :
    (c.put cap b).Ok cap := by
  have hk := h
  obtain ⟨hcount, hrd, hwr, hbuf, hval⟩ := h
  refine ⟨by simp; omega, hrd, ?_, ?_, fun i hi => ?_⟩
  · simp only [Channel.put, hwr, ← Nat.add_assoc]
    rw [Nat.mod_add_mod]
  · exact Memory.write_wf b hbuf (by rw [hwr]; exact Nat.mod_lt _ (by omega))
  · simp only [Channel.put, Memory.read?_write]
    split
    · rfl
    · rename_i hne
      have : i < c.count := by
        simp only [Channel.put_count] at hi
        rcases Nat.lt_succ_iff_lt_or_eq.1 hi with h | h
        · exact h
        · subst h; exact absurd (by simp [hwr]) hne
      exact hval i this

/-- What putting a list of bytes does to a channel with room for it (R100, R121). -/
theorem Channel.putAll_spec {cap : Nat} (bs : List Byte) {c : Channel} (h : c.Ok cap)
    (hc : c.count + bs.length ≤ cap) :
    (Channel.putAll cap c bs).Ok cap ∧
    (Channel.putAll cap c bs).contents cap = c.contents cap ++ bs.map some ∧
    (Channel.putAll cap c bs).count = c.count + bs.length ∧
    (Channel.putAll cap c bs).rd = c.rd ∧ (Channel.putAll cap c bs).wake = c.wake := by
  induction bs generalizing c with
  | nil => simpa [Channel.putAll] using h
  | cons b bs ih =>
    simp only [List.length_cons] at hc
    have hlt : c.count < cap := by omega
    obtain ⟨h1, h2, h3, h4, h5⟩ := ih (Channel.put_ok b h hlt) (by simp; omega)
    refine ⟨h1, ?_, ?_, h4, h5⟩
    · rw [Channel.putAll, h2, Channel.put_contents b h hlt]; simp
    · rw [Channel.putAll, h3]; simp; omega

/-- Removing the oldest byte leaves the rest of the contents (R101). -/
theorem Channel.drop1_contents {cap : Nat} {c : Channel} (hc : 0 < c.count) :
    (c.drop1 cap).contents cap = (c.contents cap).tail := by
  obtain ⟨n, hn⟩ : ∃ n, c.count = n + 1 := ⟨c.count - 1, by omega⟩
  simp only [Channel.contents, Channel.drop1, hn, Nat.add_sub_cancel, List.range_succ_eq_map,
    List.map_cons, List.tail_cons, List.map_map]
  refine List.map_congr_left fun i _ => ?_
  simp only [Function.comp_apply, Nat.mod_add_mod]
  congr 2
  omega

/-- Removing the oldest byte keeps the channel's invariant (R101). -/
theorem Channel.drop1_ok {cap : Nat} {c : Channel} (h : c.Ok cap) (hc : 0 < c.count) :
    (c.drop1 cap).Ok cap := by
  obtain ⟨hcount, hrd, hwr, hbuf, hval⟩ := h
  refine ⟨by simp; omega, Nat.mod_lt _ (by omega), ?_, hbuf, fun i hi => ?_⟩
  · simp only [Channel.drop1, hwr, Nat.mod_add_mod]
    congr 1
    omega
  · simp only [Channel.drop1, Nat.mod_add_mod]
    have := hval (i + 1) (by simp only [Channel.drop1_count] at hi; omega)
    rwa [show c.rd + (i + 1) = c.rd + 1 + i by omega] at this

/-- `ChGet` returns the first of the contents (R101). -/
theorem Channel.head_eq {cap : Nat} {c : Channel} (free : Nat → Byte) (h : c.Ok cap) (hc : 0 < c.count) :
    c.contents cap = some (c.head free) :: (c.contents cap).tail := by
  obtain ⟨n, hn⟩ : ∃ n, c.count = n + 1 := ⟨c.count - 1, by omega⟩
  obtain ⟨hcount, hrd, -, -, hval⟩ := h
  have hv := hval 0 hc
  rw [Nat.add_zero, Nat.mod_eq_of_lt hrd] at hv
  obtain ⟨v, hv⟩ := Option.isSome_iff_exists.1 hv
  simp only [Channel.contents, hn, List.range_succ_eq_map, List.map_cons, List.tail_cons]
  congr 1
  rw [Nat.add_zero, Nat.mod_eq_of_lt hrd, hv, Channel.head, Memory.fetch_of_read? hv]

/-- What `n` successive `ChGet` return and leave (R101). -/
theorem Channel.getN_spec {cap : Nat} (free : Nat → Byte) (n : Nat) {c : Channel} (h : c.Ok cap)
    (hn : n ≤ c.count) :
    (Channel.getN free cap n c).1.map some = (c.contents cap).take n ∧
    (Channel.getN free cap n c).2.contents cap = (c.contents cap).drop n ∧
    (Channel.getN free cap n c).2.Ok cap ∧
    (Channel.getN free cap n c).2.count = c.count - n ∧
    (Channel.getN free cap n c).2.rd = (c.rd + n) % cap ∧
    (Channel.getN free cap n c).2.wr = c.wr ∧
    (Channel.getN free cap n c).2.wake = c.wake ∧
    (Channel.getN free cap n c).2.buf = c.buf := by
  induction n generalizing c with
  | zero => simpa [Channel.getN, Nat.mod_eq_of_lt h.2.1] using h
  | succ n ih =>
    have hc : 0 < c.count := by omega
    obtain ⟨h1, h2, h3, h4, h5, h6, h7, h8⟩ := ih (Channel.drop1_ok h hc) (by simp; omega)
    rw [Channel.drop1_contents hc] at h1 h2
    have hh := Channel.head_eq free h hc
    refine ⟨?_, ?_, h3, ?_, ?_, h6, h7, h8⟩
    · simp only [Channel.getN, List.map_cons, h1]
      rw [hh]; simp
    · simp only [Channel.getN, h2]
      rw [hh]; simp
    · simp only [Channel.getN, h4, Channel.drop1_count]; omega
    · change (Channel.getN free cap n (c.drop1 cap)).2.rd = _
      rw [h5, show (c.drop1 cap).rd = (c.rd + 1) % cap from rfl, Nat.mod_add_mod]
      congr 1; omega

/-- `n` successive `ChGet` return `n` bytes. -/
@[simp] theorem Channel.getN_length (free : Nat → Byte) (cap n : Nat) (c : Channel) :
    (Channel.getN free cap n c).1.length = n := by
  induction n generalizing c with
  | zero => rfl
  | succ n ih => simp [Channel.getN, ih]

/-- The count `n` successive `ChGet` leave, in any state. -/
@[simp] theorem Channel.getN_count (free : Nat → Byte) (cap n : Nat) (c : Channel) :
    (Channel.getN free cap n c).2.count = c.count - n := by
  induction n generalizing c with
  | zero => rfl
  | succ n ih => simp [Channel.getN, ih]; omega

@[simp] theorem Channel.getN_wake (free : Nat → Byte) (cap n : Nat) (c : Channel) :
    (Channel.getN free cap n c).2.wake = c.wake := by
  induction n generalizing c with
  | zero => rfl
  | succ n ih => simp [Channel.getN, ih]

end Sys2Proof.Machine
end

