-- ==== Sys2Proof/Laws/Ops.lean ====
section
/-! SUPPORT. For each shared operation of Machine/Ops.lean, once, everything it can do. -/

namespace Sys2Proof.Machine

open Host (Outcome)

/-! ### The ends of a step -/

@[simp] theorem respond_eq (s : State) (r : Word) (d : List Byte) :
    respond s r d = .next (s.answer .ok r d) := rfl

@[simp] theorem raiseIllegal_eq (s : State) :
    raiseIllegal s = .next ((s.meets (.illegalCommand s.port.word)).answer .illegal 0 []) := rfl

@[simp] theorem holdOn_eq (s : State) (ch : Chan) :
    holdOn s ch = .next ((s.suspend (some ch)).emit (.hold s.port.agent ch)) := rfl

@[simp] theorem stayInFlight_eq (s : State) : stayInFlight s = .next (s.suspend none) := rfl

/-- An answer with status OK, in the vocabulary of Sys2Proof/Safety.lean. -/
theorem State.answer_eq_completed (s : State) (r : Word) (d : List Byte) :
    s.answer .ok r d = s.completed none [] r d := by
  simp [State.answer, State.completed, State.rolesUsing]

/-- The same once the role check has passed (R227). -/
theorem State.answer_give_eq_completed (s : State) (role : Role) (r : Word) (d : List Byte) :
    State.answer { s with roles := s.roles.give role s.port.agent } .ok r d =
      s.completed (some role) [] r d := by
  simp [State.answer, State.completed, State.rolesUsing]

/-- A hold once the role check has passed (R103, R227). -/
theorem State.hold_give_eq_heldAt (s : State) (role : Role) (ch : Chan) :
    (State.suspend { s with roles := s.roles.give role s.port.agent } (some ch)).emit
      (.hold s.port.agent ch) = s.heldAt role ch := rfl

/-! ### Refusals -/

/-- A refusal of code 7 carries agent, word and the history that ends with its condition. -/
theorem refuseContext_eq (s : State) :
    refuseContext s = .refused (.contextRefused s.port.agent s.port.word
      (s.history ++ [.condition (.contextRefused s.port.agent s.port.word)])) := rfl

/-- A refusal of code 8 carries agent, word and the history that ends with its condition. -/
theorem refuseRole_eq (s : State) :
    refuseRole s = .refused (.roleRefused s.port.agent s.port.word
      (s.history ++ [.condition (.roleRefused s.port.agent s.port.word)])) := rfl

/-- A refusal of code 9 carries agent, word and the history that ends with its condition. -/
theorem refuseData_eq (s : State) :
    refuseData s = .refused (.dataRefused s.port.agent s.port.word
      (s.history ++ [.condition (.dataRefused s.port.agent s.port.word)])) := rfl

/-! ### The checks -/

/-- The context check lets the request run exactly when its agent is in task context (R226). -/
theorem taskOnly_task {s : State} {run : State → Outcome State Fault Refusal}
    (h : s.port.agent.isInterrupt = false) : taskOnly s run = run s := by
  simp [taskOnly, h]

theorem taskOnly_interrupt {s : State} {run : State → Outcome State Fault Refusal}
    (h : s.port.agent.isInterrupt = true) :
    taskOnly s run = refuseContext s := by
  simp [taskOnly, h]

theorem taskOnly_next {s t : State} {run : State → Outcome State Fault Refusal}
    (h : taskOnly s run = .next t) : s.port.agent.isInterrupt = false ∧ run s = .next t := by
  unfold taskOnly at h
  split at h
  · cases h
  · rename_i hi; exact ⟨by simpa using hi, h⟩

/-- The role check, passed: the request runs with the role held by its agent (R227). -/
theorem asRole_mayUse {r : Role} {s : State} {run : State → Outcome State Fault Refusal}
    (h : s.mayUse r) : asRole r s run = run { s with roles := s.roles.give r s.port.agent } := by
  unfold asRole
  rcases h with h | h
  · rw [h]
  · rw [h, Roles.give_of_get _ _ _ h]; simp

/-- The role check, failed: another agent holds the role (R227). -/
theorem asRole_other {r : Role} {s : State} {a : Agent} {run : State → Outcome State Fault Refusal}
    (h : s.roles.get r = some a) (ha : a ≠ s.port.agent) :
    asRole r s run = refuseRole s := by
  simp [asRole, h, ha]

/-- The role check passes or refuses, and nothing else. -/
theorem asRole_cases (r : Role) (s : State) (run : State → Outcome State Fault Refusal) :
    (s.mayUse r ∧ asRole r s run = run { s with roles := s.roles.give r s.port.agent }) ∨
    ((∃ a, s.roles.get r = some a ∧ a ≠ s.port.agent) ∧
      asRole r s run = refuseRole s) := by
  rcases h : s.roles.get r with _ | a
  · exact .inl ⟨.inl h, asRole_mayUse (.inl h)⟩
  · by_cases ha : a = s.port.agent
    · subst ha; exact .inl ⟨.inr h, asRole_mayUse (.inr h)⟩
    · exact .inr ⟨⟨a, rfl, ha⟩, asRole_other h ha⟩

theorem asRole_next {r : Role} {s t : State} {run : State → Outcome State Fault Refusal}
    (h : asRole r s run = .next t) :
    s.mayUse r ∧ run { s with roles := s.roles.give r s.port.agent } = .next t := by
  rcases asRole_cases r s run with ⟨h1, h2⟩ | ⟨-, h2⟩
  · exact ⟨h1, h2 ▸ h⟩
  · rw [h2] at h; cases h

theorem withData_fits {n : Nat} {s : State} {run : State → Outcome State Fault Refusal}
    (h : s.port.done + s.port.rest.length = n) : withData n s run = run s := by
  simp [withData, h]

theorem withData_next {n : Nat} {s t : State} {run : State → Outcome State Fault Refusal}
    (h : withData n s run = .next t) :
    s.port.done + s.port.rest.length = n ∧ run s = .next t := by
  unfold withData at h
  split at h
  · exact ⟨‹_›, h⟩
  · cases h

/-! ### Flags -/

/-- `TxHyst` (R131): only `TX.wake` can change, and only to 1, when the free space crosses `TX_HYST`. -/
theorem State.txHyst_tx (s : State) (f0 f1 : Nat) :
    (s.txHyst f0 f1).tx =
      s.tx.withWake (s.tx.wake || decide (f0 < s.cfg.txHyst ∧ s.cfg.txHyst ≤ f1)) := by
  unfold State.txHyst
  split
  · rename_i h; simp [h, Channel.withWake]
  · rename_i h
    simp only [h, decide_false, Bool.or_false]
    rfl

/-- `TxHyst` as an update of one field. -/
theorem State.txHyst_eq (s : State) (f0 f1 : Nat) :
    s.txHyst f0 f1 = { s with tx := (s.txHyst f0 f1).tx } := by
  unfold State.txHyst
  split <;> rfl

/-- `bump` stays below `2 ^ CNT_W` (R34). -/
theorem bump_lt (cfg : Config) (n : Nat) : bump cfg n < 2 ^ cfg.cntW :=
  Nat.mod_lt _ (by positivity)

/-! ### Removing bytes from a channel -/

/-- What removing the `n` oldest bytes of a channel returns and leaves (R101, R105). -/
theorem State.take_spec (s : State) (ch : Chan) (n : Nat) (h : (s.chan ch).Ok (Config.cap s.cfg ch))
    (hn : n ≤ (s.chan ch).count) :
    (s.take ch n).1.map some = ((s.chan ch).contents (Config.cap s.cfg ch)).take n ∧
    ((s.take ch n).2.chan ch).contents (Config.cap s.cfg ch) =
      ((s.chan ch).contents (Config.cap s.cfg ch)).drop n ∧
    ((s.take ch n).2.chan ch).Ok (Config.cap s.cfg ch) ∧
    ((s.take ch n).2.chan ch).count = (s.chan ch).count - n ∧
    ((s.take ch n).2.chan ch).rd = ((s.chan ch).rd + n) % Config.cap s.cfg ch ∧
    ((s.take ch n).2.chan ch).wr = (s.chan ch).wr ∧
    ((s.take ch n).2.chan ch).wake = (s.chan ch).wake ∧
    ((s.take ch n).2.chan ch).buf = (s.chan ch).buf := by
  simpa [State.take] using Channel.getN_spec (Config.freeByte s.draws) n h hn

/-- Removing bytes is an update of one channel. -/
theorem State.take_eq (s : State) (ch : Chan) (n : Nat) :
    (s.take ch n).2 = s.setChan ch ((s.take ch n).2.chan ch) := by
  cases ch <;> rfl

/-! ### Writing a chunk -/

/-- What one chunk of a `WRITE` does (R121), when TX is in order and the data bytes still to copy are the
`n - done` that are left. -/
theorem State.writeChunk_spec (s : State) (n : Nat) (h : s.tx.Ok s.cfg.cTx)
    (hd : s.port.done + s.port.rest.length = n) :
    (s.writeChunk n).tx.Ok s.cfg.cTx ∧
    (s.writeChunk n).tx.contents s.cfg.cTx =
      s.tx.contents s.cfg.cTx ++
        (s.port.rest.take (min (s.freeOf .tx) (n - s.port.done))).map some ∧
    (s.writeChunk n).tx.count = s.tx.count + min (s.freeOf .tx) (n - s.port.done) ∧
    (s.writeChunk n).tx.wake = s.tx.wake ∧
    (s.writeChunk n).port.done = s.port.done + min (s.freeOf .tx) (n - s.port.done) ∧
    (s.writeChunk n).port.rest = s.port.rest.drop (min (s.freeOf .tx) (n - s.port.done)) ∧
    (s.writeChunk n).port.done + (s.writeChunk n).port.rest.length = n := by
  have hfree : s.freeOf .tx = s.cfg.cTx - s.tx.count := rfl
  have hlen : (s.port.rest.take (min (s.freeOf .tx) (n - s.port.done))).length =
      min (s.freeOf .tx) (n - s.port.done) := by
    rw [List.length_take]; omega
  have hle : s.tx.count ≤ s.cfg.cTx := h.1
  obtain ⟨h1, h2, h3, -, h5⟩ :=
    Channel.putAll_spec (s.port.rest.take (min (s.freeOf .tx) (n - s.port.done))) h
      (by rw [hlen]; omega)
  refine ⟨h1, h2, by rw [hlen] at h3; exact h3, h5, rfl, rfl, ?_⟩
  change s.port.done + min (s.freeOf .tx) (n - s.port.done) +
    (s.port.rest.drop (min (s.freeOf .tx) (n - s.port.done))).length = n
  rw [List.length_drop]
  omega

/-! ### Trouble-code labels (R7, R209) -/

@[simp] theorem Config.labelOf_given {c : Config} {labels : Vector (Vector Char 6) 24}
    (h : c.dtcLabel = some labels) (k : Fin 24) : c.labelOf k = labels.get k := by
  simp [Config.labelOf, h]

@[simp] theorem Config.labelOf_open {c : Config} (h : c.dtcLabel = none) (k : Fin 24) :
    c.labelOf k = Config.openDtcLabel k := by
  simp [Config.labelOf, h]

/-- The label of a code is the instance's; every other result of `DTC` has the label of no code. -/
theorem troubleLabel_eq (cfg : Config) (n : Nat) :
    (∀ h : n < 24, troubleLabel cfg n = (cfg.labelOf ⟨n, h⟩).toList) ∧
      (24 ≤ n → troubleLabel cfg n = Config.dtcNoneLabel.toList) := by
  refine ⟨fun h => by simp [troubleLabel, h], fun h => by simp [troubleLabel, Nat.not_lt.2 h]⟩

/-! ### The duty of TXI (R235) -/

/-- The duty after a step that appends the events `es` to the history. -/
theorem txiOwesTxready_append {s t : State} {es : List Event} (h : t.history = s.history ++ es) :
    txiOwesTxready t = es.foldl transmitterAfter (txiOwesTxready s) := by
  simp [txiOwesTxready, h]

/-- The response of a request other than `TXREADY`, whatever it says, leaves the duty as it was. -/
theorem transmitterAfter_response_other {running : Bool} {a : Agent} {w : Word} {r : Response}
    (h : decode w ≠ .ok .txready) : transmitterAfter running (.response a w r) = running := by
  simp [transmitterAfter]

/-- The response of a `TXREADY` keeps the duty exactly when its valid bit is 1. -/
theorem transmitterAfter_response_txready {running : Bool} {a : Agent} {w : Word} {r : Response}
    (h : decode w = .ok .txready) :
    transmitterAfter running (.response a w r) = (running && r.result.getLsbD 8) := by
  simp [transmitterAfter, h]

end Sys2Proof.Machine
end

