-- ==== Sys2Proof/Laws/PerInstr.lean ====
section
/-! SUPPORT. Families of statements made for each request. `EncodedOp`: the word of a request carries the `OP`
value of the table's row with its mnemonic (30_encoding R71), and a zero `RSV` field (R70). -/

namespace Sys2Proof.Laws.EncodedOp

/-- The encoded word has the `OP` value of the row of the request's mnemonic, and `RSV` is 0. -/
def Statement (i : Instr) : Prop :=
  (∃ f, (i.mnemonic, opField (encode i), f) ∈ opcodeTable) ∧ rsvField (encode i) = 0

theorem push (ch : Chan) (b : Byte) : Statement (.push ch b) :=
  ⟨⟨.CB, by simp [encode, Instr.mnemonic, opcodeTable]⟩, by simp [encode]⟩

theorem popb : Statement (.popb) :=
  ⟨⟨.Z, by simp [encode, Instr.mnemonic, opcodeTable]⟩, by simp [encode]⟩

theorem popnb (ch : Chan) (n : Nat) : Statement (.popnb ch n) :=
  ⟨⟨.CN, by simp [encode, Instr.mnemonic, opcodeTable]⟩, by simp [encode]⟩

theorem free (ch : Chan) : Statement (.free ch) :=
  ⟨⟨.C, by simp [encode, Instr.mnemonic, opcodeTable]⟩, by simp [encode]⟩

theorem avail (ch : Chan) : Statement (.avail ch) :=
  ⟨⟨.C, by simp [encode, Instr.mnemonic, opcodeTable]⟩, by simp [encode]⟩

theorem write (n : Nat) : Statement (.write n) :=
  ⟨⟨.N, by simp [encode, Instr.mnemonic, opcodeTable]⟩, by simp [encode]⟩

theorem read (wait : Bool) (n : Nat) : Statement (.read wait n) :=
  ⟨⟨.WN, by simp [encode, Instr.mnemonic, opcodeTable]⟩, by simp [encode]⟩

theorem wspace : Statement (.wspace) :=
  ⟨⟨.Z, by simp [encode, Instr.mnemonic, opcodeTable]⟩, by simp [encode]⟩

theorem ravail : Statement (.ravail) :=
  ⟨⟨.Z, by simp [encode, Instr.mnemonic, opcodeTable]⟩, by simp [encode]⟩

theorem rxbyte (b : Byte) : Statement (.rxbyte b) :=
  ⟨⟨.B, by simp [encode, Instr.mnemonic, opcodeTable]⟩, by simp [encode]⟩

theorem txready : Statement (.txready) :=
  ⟨⟨.Z, by simp [encode, Instr.mnemonic, opcodeTable]⟩, by simp [encode]⟩

theorem rxlost : Statement (.rxlost) :=
  ⟨⟨.Z, by simp [encode, Instr.mnemonic, opcodeTable]⟩, by simp [encode]⟩

theorem feed (b : Byte) : Statement (.feed b) :=
  ⟨⟨.B, by simp [encode, Instr.mnemonic, opcodeTable]⟩, by simp [encode]⟩

theorem wasupd : Statement (.wasupd) :=
  ⟨⟨.Z, by simp [encode, Instr.mnemonic, opcodeTable]⟩, by simp [encode]⟩

theorem nbytes : Statement (.nbytes) :=
  ⟨⟨.Z, by simp [encode, Instr.mnemonic, opcodeTable]⟩, by simp [encode]⟩

theorem ngood : Statement (.ngood) :=
  ⟨⟨.Z, by simp [encode, Instr.mnemonic, opcodeTable]⟩, by simp [encode]⟩

theorem nbad : Statement (.nbad) :=
  ⟨⟨.Z, by simp [encode, Instr.mnemonic, opcodeTable]⟩, by simp [encode]⟩

theorem conn : Statement (.conn) :=
  ⟨⟨.Z, by simp [encode, Instr.mnemonic, opcodeTable]⟩, by simp [encode]⟩

theorem mem (a : Nat) : Statement (.mem a) :=
  ⟨⟨.B, by simp [encode, Instr.mnemonic, opcodeTable]⟩, by simp [encode]⟩

theorem adc (j : Nat) : Statement (.adc j) :=
  ⟨⟨.I3, by simp [encode, Instr.mnemonic, opcodeTable]⟩, by simp [encode]⟩

theorem engspd : Statement (.engspd) :=
  ⟨⟨.Z, by simp [encode, Instr.mnemonic, opcodeTable]⟩, by simp [encode]⟩

theorem gndspd : Statement (.gndspd) :=
  ⟨⟨.Z, by simp [encode, Instr.mnemonic, opcodeTable]⟩, by simp [encode]⟩

theorem oilp : Statement (.oilp) :=
  ⟨⟨.Z, by simp [encode, Instr.mnemonic, opcodeTable]⟩, by simp [encode]⟩

theorem wtemp : Statement (.wtemp) :=
  ⟨⟨.Z, by simp [encode, Instr.mnemonic, opcodeTable]⟩, by simp [encode]⟩

theorem volt : Statement (.volt) :=
  ⟨⟨.Z, by simp [encode, Instr.mnemonic, opcodeTable]⟩, by simp [encode]⟩

theorem afr : Statement (.afr) :=
  ⟨⟨.Z, by simp [encode, Instr.mnemonic, opcodeTable]⟩, by simp [encode]⟩

theorem ses : Statement (.ses) :=
  ⟨⟨.Z, by simp [encode, Instr.mnemonic, opcodeTable]⟩, by simp [encode]⟩

theorem run : Statement (.run) :=
  ⟨⟨.Z, by simp [encode, Instr.mnemonic, opcodeTable]⟩, by simp [encode]⟩

theorem dtc (k : Nat) : Statement (.dtc k) :=
  ⟨⟨.I16, by simp [encode, Instr.mnemonic, opcodeTable]⟩, by simp [encode]⟩

end Sys2Proof.Laws.EncodedOp
end

