-- ==== Sys2Proof/Laws/Step.lean ====
section
/-! SUPPORT. What a step can do, once (00_scope R12, R13; 40_channel R103). -/

namespace Sys2Proof.Machine

open Host (Outcome)

/-- What `atPort` can be, given the agent's continuation and program. -/
theorem State.atPort_idle {s : State} {a : Agent} (h : s.conts.get a = none) :
    s.atPort a = match s.programs.get a with | [] => none | q :: later => some (s.issue a q later) := by
  cases hp : s.programs.get a <;> simp [State.atPort, h, hp]

theorem State.atPort_inFlight {s : State} {a : Agent} {k : Continuation}
    (h : s.conts.get a = some k) (hw : k.waiting = none) : s.atPort a = some (s.reenter a k) := by
  simp [State.atPort, h, hw]

theorem State.atPort_held {s : State} {a : Agent} {k : Continuation} {ch : Chan}
    (h : s.conts.get a = some k) (hw : k.waiting = some ch) :
    s.atPort a = if (s.chan ch).wake = true then some ((s.resumed a ch).reenter a k) else none := by
  simp [State.atPort, h, hw]

/-- A step with an agent next (R228). -/
theorem step_agent {s : State} {a : Agent} {later : List Choice} (hl : s.cfg.Legal)
    (hs : s.schedule = .agent a :: later) :
    step s = match ({ s with schedule := later } : State).atPort a with
      | none => .next { s with schedule := later }
      | some u => perform u := by
  rw [step, nextStep, if_pos hl, hs]
  rfl

/-- A step with reset next (R250). -/
theorem step_reset {s : State} {later : List Choice} (hl : s.cfg.Legal)
    (hs : s.schedule = .reset :: later) :
    step s = .next (resetBlock { s with schedule := later }) := by
  rw [step, nextStep, if_pos hl, hs]

/-- A step with nothing scheduled (log 2). -/
theorem step_idle {s : State} (hl : s.cfg.Legal) (hs : s.schedule = []) : step s = .next s := by
  rw [step, nextStep, if_pos hl, hs]

/-- Performing a word that decodes is performing its request. -/
theorem perform_of_decode {s : State} {i : Instr} (h : decode s.port.word = .ok i) :
    perform s = exec i s := by
  simp [perform, h]

/-- Performing an illegal word (R76). -/
theorem perform_of_error {s : State} {e : Illegal} (h : decode s.port.word = .error e) :
    perform s = .next ((s.meets (.illegalCommand s.port.word)).answer .illegal 0 []) := by
  simp [perform, h]

/-- Everything a step that answers `next t` can be. -/
theorem step_cases {s t : State} (h : step s = .next t) :
    s.cfg.Legal ∧
    ((s.schedule = [] ∧ t = s) ∨
     (∃ later, s.schedule = .reset :: later ∧ t = resetBlock { s with schedule := later }) ∨
     (∃ a later, s.schedule = .agent a :: later ∧
        ((({ s with schedule := later } : State).atPort a = none ∧ t = { s with schedule := later }) ∨
         (∃ u, ({ s with schedule := later } : State).atPort a = some u ∧
            ((∃ e, decode u.port.word = .error e ∧
                t = (u.meets (.illegalCommand u.port.word)).answer .illegal 0 []) ∨
             (∃ i, decode u.port.word = .ok i ∧ exec i u = .next t)))))) := by
  unfold step nextStep at h
  split at h
  · rename_i hl
    refine ⟨hl, ?_⟩
    split at h
    · rename_i hs; cases h; exact .inl ⟨hs, rfl⟩
    · rename_i later hs; cases h; exact .inr (.inl ⟨later, hs, rfl⟩)
    · rename_i a later hs
      refine .inr (.inr ⟨a, later, hs, ?_⟩)
      unfold agentStep at h
      split at h
      · rename_i hp; cases h; exact .inl ⟨hp, rfl⟩
      · rename_i u hp
        refine .inr ⟨u, hp, ?_⟩
        unfold perform at h
        split at h
        · rename_i e he; cases h; exact .inl ⟨e, he, rfl⟩
        · rename_i i hi; exact .inr ⟨i, hi, h⟩
  · cases h

end Sys2Proof.Machine
end

