-- ==== Sys2Proof/Tests/Slice0.lean ====
section
/-! SUPPORT. The model's own tests, each expected value taken from 95_test_vectors or worked out from a rule;
and for every statement with hypotheses, a state and operands that meet them. -/

namespace Sys2Proof.Tests

open Sys2Proof Sys2Proof.Machine

/-! ### Small states -/

/-- `C_RX = C_TX = 4`, `TX_HYST = 2`, `CNT_W = 16`. -/
def cfg4 : Config := { cRx := 4, cTx := 4, txHyst := 2, cntW := 16 }

/-- A channel of capacity 4 with its read cursor at `rd`, holding the given bytes. -/
def loaded (rd : Nat) (bytes : List Byte) (wake : Bool) : Channel :=
  Channel.putAll 4 { buf := [], rd := rd, wr := rd, count := 0, wake := wake } bytes

/-- Right after reset, with the small capacities. -/
def base : State := State.resetWith cfg4

/-- The same with agent `a`'s request at the port. -/
def issuedBy (a : Agent) (word : Word) (data : List Byte) (s : State) : State :=
  { s with port := { agent := a, word := word, done := 0, rest := data } }

/-- Agent `a` is to issue the request as the next step. -/
def about (a : Agent) (word : Word) (data : List Byte) (s : State) : State :=
  { s with programs := s.programs.set a [{ word := word, data := data }], schedule := [.agent a] }

/-- RX holds the given bytes. -/
def withRx (bytes : List Byte) (s : State) : State := { s with rx := loaded 0 bytes false }

/-- TX holds the given bytes. -/
def withTx (bytes : List Byte) (s : State) : State := { s with tx := loaded 0 bytes false }

/-- The snapshot elements of frame F1 that the view reads (95_test_vectors 2.4). -/
def sample : State :=
  { base with
    memP := [(0x01, 0x80), (0x0B, 0x01), (0x12, 0x05), (0x13, 0), (0x14, 0x80), (0x34, 60), (0x45, 138),
      (0xE3, 120), (0xF3, 100)]
    adcP := [(0, 0), (1, 0x0200), (2, 0x0200)] }

/-! ### What a step answered -/

/-- Status, result and data of the last event, if that is a response. -/
def responseOf : Host.Outcome State Fault Refusal → Option (Status × Nat × List Nat)
  | .next t =>
    match t.history.getLast? with
    | some (.response _ _ r) => some (r.status, r.result.toNat, r.data.map BitVec.toNat)
    | _ => none
  | _ => none

/-- A view of the next state. -/
def leaves {α : Type} (view : State → α) : Host.Outcome State Fault Refusal → Option α
  | .next t => some (view t)
  | _ => none

/-- The name of the refusal. -/
def refusal : Host.Outcome State Fault Refusal → Option Refusal
  | .refused r => some r
  | _ => none

/-- The result of a request that answers OK with no data. -/
def result (i : Instr) (s : State) : Option Nat :=
  match responseOf (exec i s) with
  | some (.ok, n, []) => some n
  | _ => none

/-! ### WellFormed: each check refuses an operand just outside its field (R73, R75, R7) -/

theorem test_popnb_operand_is_16_bits :
    (Instr.popnb .rx 65535).wellFormed = true ∧ (Instr.popnb .rx 65536).wellFormed = false := by decide

theorem test_write_operand_is_16_bits :
    (Instr.write 65535).wellFormed = true ∧ (Instr.write 65536).wellFormed = false := by decide

theorem test_read_operand_is_16_bits :
    (Instr.read true 65535).wellFormed = true ∧ (Instr.read true 65536).wellFormed = false := by decide

theorem test_mem_operand_is_8_bits :
    (Instr.mem 255).wellFormed = true ∧ (Instr.mem 256).wellFormed = false := by decide

theorem test_adc_operand_is_3_bits :
    (Instr.adc 7).wellFormed = true ∧ (Instr.adc 8).wellFormed = false := by decide

theorem test_dtc_operand_is_16_bits :
    (Instr.dtc 65535).wellFormed = true ∧ (Instr.dtc 65536).wellFormed = false := by decide

theorem test_write_data_list_is_n_bytes :
    (Instr.write 2).dataFits [1, 2] = true ∧ (Instr.write 2).dataFits [1] = false := by decide

/-- `C_TX < TX_HYST` is rejected, and so is every parameter outside R7's range. -/
theorem test_illegal_parameters_are_rejected :
    Config.reference.Legal ∧ ¬ Config.Legal { cRx := 4, cTx := 7, txHyst := 8, cntW := 32 } ∧
      ¬ Config.Legal { cRx := 0, cTx := 8, txHyst := 8, cntW := 32 } ∧
      ¬ Config.Legal { cRx := 4, cTx := 8, txHyst := 8, cntW := 15 } ∧
      ¬ Config.Legal { cRx := 4, cTx := 65536, txHyst := 8, cntW := 16 } ∧
      refusal (step (State.resetWith { cRx := 4, cTx := 7, txHyst := 8, cntW := 32 })) =
        some .illegalConfiguration := by decide

/-! ### Decoding: words written out from R71, R72 and R80, one at least for each request -/

theorem test_decode_channel_words :
    decode 0x04000055 = .ok (.push .rx 0x55) ∧ decode 0x060000FF = .ok (.push .tx 0xFF) ∧
    decode 0x08000000 = .ok .popb ∧
    decode 0x0C000002 = .ok (.popnb .rx 2) ∧ decode 0x0E00FFFF = .ok (.popnb .tx 65535) ∧
    decode 0x10000000 = .ok (.free .rx) ∧ decode 0x12000000 = .ok (.free .tx) ∧
    decode 0x14000000 = .ok (.avail .rx) ∧ decode 0x16000000 = .ok (.avail .tx) := by decide

theorem test_decode_port_words :
    decode 0x20000003 = .ok (.write 3) ∧ decode 0x24000008 = .ok (.read false 8) ∧
    decode 0x25008000 = .ok (.read true 32768) ∧ decode 0x28000000 = .ok .wspace ∧
    decode 0x2C000000 = .ok .ravail ∧ decode 0x30000042 = .ok (.rxbyte 0x42) ∧
    decode 0x34000000 = .ok .txready ∧ decode 0x38000000 = .ok .rxlost := by decide

theorem test_decode_decoder_words :
    decode 0x400000AA = .ok (.feed 0xAA) ∧ decode 0x44000000 = .ok .wasupd ∧
    decode 0x48000000 = .ok .nbytes ∧ decode 0x4C000000 = .ok .ngood ∧
    decode 0x50000000 = .ok .nbad ∧ decode 0x54000000 = .ok .conn ∧
    decode 0x580000F3 = .ok (.mem 0xF3) ∧ decode 0x5C000007 = .ok (.adc 7) := by decide

theorem test_decode_view_words :
    decode 0x80000000 = .ok .engspd ∧ decode 0x84000000 = .ok .gndspd ∧
    decode 0x88000000 = .ok .oilp ∧ decode 0x8C000000 = .ok .wtemp ∧
    decode 0x90000000 = .ok .volt ∧ decode 0x94000000 = .ok .afr ∧
    decode 0x98000000 = .ok .ses ∧ decode 0x9C000000 = .ok .run ∧
    decode 0xA000FFFF = .ok (.dtc 65535) := by decide

/-- V-E3, V-E4, V-E6, V-E11, V-E14, V-E15, V-E17, V-E19. -/
theorem test_decode_fixed_bits_must_be_zero :
    decode 0x04010000 = .error .reservedBits ∧ decode 0x04000155 = .error .strayOperand ∧
    decode 0x0A000000 = .error .strayChannel ∧ decode 0x21000003 = .error .strayWait ∧
    decode 0x26000008 = .error .strayChannel ∧ decode 0x34000001 = .error .strayOperand ∧
    decode 0x5C000008 = .error .strayOperand ∧ decode 0xA0010000 = .error .reservedBits := by decide

/-- V-E20 to V-E23: the reserved `OP` values. -/
theorem test_decode_reserved_ops :
    ([0x00, 0x06, 0x07, 0x0F, 0x18, 0x19, 0x1A, 0x1B, 0x1C, 0x1D, 0x1E, 0x1F] ++
      (List.range 23).map (0x29 + ·)).all (fun op =>
        decide (decode (BitVec.ofNat 32 (op * 2 ^ 26)) =
          Except.error (Illegal.reservedOp (BitVec.ofNat 6 op)))) = true := by decide

/-- No two rows of the table overlap: each pair differs in a bit that both rows fix. -/
theorem test_table_rows_do_not_overlap :
    opcodeTable.Pairwise (fun r r' =>
      (matchOf r.2.1 ^^^ matchOf r'.2.1) &&& r.2.2.mask &&& r'.2.2.mask ≠ 0) := by decide

theorem test_encode_words :
    encode (.push .tx 0x41) = 0x06000041 ∧ encode (.popnb .tx 16) = 0x0E000010 ∧
    encode (.read true 8) = 0x25000008 ∧ encode (.write 20) = 0x20000014 ∧
    encode (.adc 2) = 0x5C000002 ∧ encode .run = 0x9C000000 ∧ encode (.dtc 3) = 0xA0000003 := by decide

theorem test_decodeTableWord_reads_the_row :
    decodeTableWord 32 0x5C000002 = some (.adc 2) ∧ decodeTableWord 32 0x5C000008 = none := by decide

/-! ### Assembly (R80, R81) -/

theorem test_assemble_push :
    assembleLine "RXT: push tx, 0x41 ; a comment".toList =
      some (some .rxt, { word := 0x06000041, data := [] }) := by decide

theorem test_assemble_write :
    assembleLine "write [0x01, 2, 3]".toList =
      some (none, { word := 0x20000003, data := [1, 2, 3] }) := by decide

theorem test_assemble_refuses_a_pop_on_tx : assembleLine "popb tx".toList = none := by decide

theorem test_pump_is_popb_then_feed :
    expandPseudo (.pump 0x55) =
      some [{ word := 0x08000000, data := [] }, { word := 0x40000055, data := [] }] := by decide

/-- `poll` at the top of the operand's field (R73), and past it (log 23). -/
theorem test_poll_operand_is_16_bits :
    expandPseudo (.poll 65535) = some [{ word := 0x2400FFFF, data := [] }] ∧
    expandPseudo (.poll 65536) = none ∧ expandPseudo (.frame [0x55, 0xAA]) = none := by decide

/-! ### One step of each request -/

/-- V-C4: the write cursor wraps. -/
theorem test_push_wraps :
    leaves (fun t => (Memory.read? t.rx.buf 3, t.rx.wr, t.rx.count, t.rx.wake))
      (exec (.push .rx 7) { base with rx := loaded 3 [] false }) = some (some 7, 0, 1, true) := by decide

/-- V-C3, and V-C2's rule that a `PUSH` into TX leaves the wake. -/
theorem test_push_full_and_tx_wake :
    responseOf (exec (.push .rx 9) (withRx [1, 2, 3, 4] base)) = some (.ok, 0, []) ∧
    leaves (fun t => (t.tx.count, t.tx.wake, t.history.length)) (exec (.push .tx 0x41) base) =
      some (1, false, 1) := by decide

/-- V-C5. -/
theorem test_popb_returns_the_oldest :
    responseOf (exec .popb (withRx [0x55, 0xAA] base)) = some (.ok, 0x55, [0x55]) ∧
    leaves (fun t => (t.rx.rd, t.rx.count)) (exec .popb (withRx [0x55, 0xAA] base)) =
      some (1, 1) := by decide

/-- V-C14. -/
theorem test_popb_holds_on_an_empty_rx :
    leaves (fun t => (t.conts.rxt, t.history)) (exec .popb (issuedBy .rxt 0x08000000 [] base)) =
      some (some { word := 0x08000000, done := 0, rest := [], waiting := some .rx },
        [.hold .rxt .rx]) := by decide

/-- V-C9: the read cursor wraps. -/
theorem test_popnb_wraps :
    responseOf (exec (.popnb .rx 8) { base with rx := loaded 2 [7, 8, 9] false }) =
      some (.ok, 3, [7, 8, 9]) ∧
    leaves (fun t => (t.rx.rd, t.rx.count))
      (exec (.popnb .rx 8) { base with rx := loaded 2 [7, 8, 9] false }) = some (1, 0) := by decide

/-- V-C10 and V-C11, with `C_TX = 4` and `TX_HYST = 2`: free 0 to 2 crosses, 2 to 3 does not. -/
theorem test_popnb_crosses_the_hysteresis :
    leaves (fun t => t.tx.wake) (exec (.popnb .tx 2) (withTx [1, 2, 3, 4] base)) = some true ∧
    leaves (fun t => t.tx.wake) (exec (.popnb .tx 1) (withTx [1, 2] base)) = some false := by decide

/-- V-C12. -/
theorem test_free_answers :
    result (.free .tx) { State.reset with tx := { Channel.empty with count := 28 } } = some 100 := by
  decide

/-- V-C13. -/
theorem test_avail_answers : result (.avail .rx) (withRx [1, 2, 3] base) = some 3 := by decide

/-- V-P1. -/
theorem test_write_queues_and_starts :
    leaves (fun t => (t.tx.contents 4, t.history))
      (exec (.write 3) (issuedBy .txt 0x20000003 [1, 2, 3] base)) =
      some ([some 1, some 2, some 3],
        [.txStart, .response .txt 0x20000003 { status := .ok, result := 3, data := [] }]) := by decide

/-- P3's first step in small: a chunk is copied and the request stays in flight. -/
theorem test_write_copies_what_fits :
    leaves (fun t => (t.tx.count, t.conts.txt, t.history))
      (exec (.write 3) (issuedBy .txt 0x20000003 [5, 6, 7] (withTx [1, 2] base))) =
      some (4, some { word := 0x20000003, done := 2, rest := [7], waiting := none }, [.txStart]) := by
  decide

/-- V-P4. -/
theorem test_read_takes_what_is_there :
    responseOf (exec (.read true 8) (withRx [0x10, 0x20] base)) = some (.ok, 2, [0x10, 0x20]) := by
  decide

/-- V-P5 and V-P6. -/
theorem test_read_nowait_and_zero :
    responseOf (exec (.read false 8) base) = some (.ok, 0, []) ∧
    leaves (fun t => t.rx.count) (exec (.read false 0) (withRx [0x10] base)) = some 1 := by decide

/-- V-P13. -/
theorem test_wspace_answers :
    result .wspace { State.reset with tx := { Channel.empty with count := 28 } } = some 100 := by decide

/-- V-P14. -/
theorem test_ravail_answers : result .ravail (withRx [1, 2, 3] base) = some 3 := by decide

/-- V-P7, with a counter at its top: it wraps (R34). -/
theorem test_rxbyte_drops_the_newest :
    leaves (fun t => (t.rx.contents 4, t.rxLost))
      (exec (.rxbyte 0x42) { withRx [1, 2, 3, 4] base with rxLost := 65535 }) =
      some ([some 1, some 2, some 3, some 4], 0) := by decide

/-- V-C15. -/
theorem test_rxbyte_stores_and_wakes :
    leaves (fun t => (t.rx.contents 4, t.rx.wake)) (exec (.rxbyte 0x10) base) =
      some ([some 0x10], true) := by decide

/-- V-P10 and V-P11: the result, and the wake at the crossing only. -/
theorem test_txready_returns_the_byte :
    responseOf (exec .txready (withTx [0x41, 2, 3, 4] base)) = some (.ok, 0x141, []) ∧
    leaves (fun t => t.tx.wake) (exec .txready (withTx [0x41, 2, 3, 4] base)) = some false ∧
    leaves (fun t => t.tx.wake) (exec .txready (withTx [2, 3, 4] base)) = some true := by decide

/-- V-P9 and V-P12. -/
theorem test_txready_empty_and_no_crossing :
    responseOf (exec .txready base) = some (.ok, 0, []) ∧
    leaves (fun t => t.tx.wake) (exec .txready (withTx [3, 4] base)) = some false := by decide

/-- V-P15. -/
theorem test_rxlost_answers : result .rxlost { base with rxLost := 1 } = some 1 := by decide

/-- V-D5 to V-D7: the last body byte, the status byte, the high byte of an analog word. -/
theorem test_feed_stores :
    leaves (fun t => (t.memS, t.idx.toNat, t.dstate))
      (exec (.feed 0x7E) { base with dstate := .readingBody, idx := 255 }) =
      some ([(255, 0x7E)], 256, .readingStatus) ∧
    leaves (fun t => (t.sum.toNat, t.idx.toNat, t.dstate))
      (exec (.feed 0x3C) { base with dstate := .readingStatus, idx := 256, sum := 1 }) =
      some (0x3D, 0, .readingAnalog) ∧
    leaves (fun t => (t.adcS, t.idx.toNat))
      (exec (.feed 0x12) { base with dstate := .readingAnalog, idx := 1, adcS := [(0, 0x34)] }) =
      some ([(0, 0x1234)], 2) := by decide

/-- V-D9 to V-D11: the checksum bytes of frame R. -/
theorem test_feed_checks :
    leaves (fun t => (t.sum.toNat, t.dstate))
      (exec (.feed 0x80) { base with dstate := .awaitChecksumHi, sum := 0x807F }) =
      some (0x007F, .awaitChecksumLo) ∧
    leaves (fun t => (t.nGood, t.nBad, t.updated, t.memP))
      (exec (.feed 0x7F) { base with dstate := .awaitChecksumLo, sum := 0x007F, memS := [(3, 9)] }) =
      some (1, 0, true, [(3, 9)]) ∧
    leaves (fun t => (t.nGood, t.nBad, t.updated, t.memP))
      (exec (.feed 0x7E) { base with dstate := .awaitChecksumLo, sum := 0x007F, memS := [(3, 9)] }) =
      some (0, 1, false, []) := ⟨by decide, by decide, by decide⟩

/-- V-S1. -/
theorem test_wasupd_clears :
    result .wasupd { base with updated := true } = some 1 ∧
    leaves State.updated (exec .wasupd { base with updated := true }) = some false ∧
    result .wasupd base = some 0 := by decide

/-- V-S2, with a counter above 32 bits: the low 32 bits are answered (R182). -/
theorem test_nbytes_answers :
    result .nbytes { base with nBytes := 277 } = some 277 ∧
    result .nbytes { base with nBytes := 2 ^ 40 + 5 } = some 5 := by decide

theorem test_ngood_answers : result .ngood { base with nGood := 2, nBad := 7 } = some 2 := by decide

theorem test_nbad_answers : result .nbad { base with nGood := 2, nBad := 7 } = some 7 := by decide

theorem test_conn_answers :
    result .conn { base with connected := true } = some 1 ∧ result .conn base = some 0 := by decide

/-- V-S4. -/
theorem test_mem_answers : result (.mem 0xF3) sample = some 100 := by decide

/-- V-S5. -/
theorem test_adc_answers :
    result (.adc 2) sample = some 0x0200 ∧ result (.adc 0) sample = some 0 := by decide

/-- V-V1, and V-V9 through the request. -/
theorem test_engspd :
    [0, 1, 3, 4, 100, 205, 206, 255].map engineSpeed = [0, 31, 93, 125, 3125, 6406, 6437, 7968] ∧
    result .engspd sample = some 3125 := by decide

/-- V-V5. -/
theorem test_gndspd : result .gndspd sample = some 60 := by decide

/-- V-V2, and V-V9 through the request. -/
theorem test_oilp :
    [0, 101, 102, 103, 106, 107, 110, 512, 613, 614, 615, 920, 921, 922, 1023, 65535].map oilPressure =
      [0, 0, 0, 0, 0, 1, 1, 50, 62, 63, 63, 100, 100, 100, 100, 100] ∧
    result .oilp sample = some 50 := by decide

/-- V-V3, and V-V9 through the request. -/
theorem test_wtemp :
    [0, 53, 54, 55, 56, 57, 58, 100, 120, 200, 255].map waterTemperature =
      [0, 0, 1, 1, 2, 3, 4, 35, 50, 110, 151] ∧
    result .wtemp sample = some 50 := by decide

/-- V-V5. -/
theorem test_volt : result .volt sample = some 138 := by decide

/-- V-V4, and V-V9 through the request. -/
theorem test_afr :
    [0, 1, 5, 6, 128, 256, 384, 512, 1023, 65535].map airFuelRatio =
      [96, 96, 96, 97, 109, 121, 134, 146, 196, 6496] ∧
    result .afr sample = some 146 := by decide

/-- V-V6. -/
theorem test_ses :
    result .ses sample = some 1 ∧ result .ses { base with memP := [(0x0B, 0xFE)] } = some 0 := by decide

/-- V-V7. -/
theorem test_run :
    result .run sample = some 1 ∧ result .run { base with memP := [(0x01, 0x7F)] } = some 0 := by decide

/-- V-V8. -/
theorem test_dtc :
    [0, 1, 2, 3, 65535].map (troubleCode (activeCodes 0x05 0 0x80)) =
      [0, 2, 23, 0xFFFF, 0xFFFF] ∧
    troubleCode (activeCodes 0 0 0) 0 = 0xFFFF ∧ troubleCode (activeCodes 0 0x01 0) 0 = 8 ∧
    result (.dtc 2) sample = some 23 := by decide

/-- R209, R7: the label of a code is the instance's, and the one of no code is "none". -/
theorem test_trouble_label :
    let labels : Vector (Vector Char 6) 24 :=
      (Vector.replicate 24 (Vector.replicate 6 ' ')).set 23 #v['D', 'T', 'C', '0', '2', '3']
    troubleLabel { cfg4 with dtcLabel := some labels } 23 = "DTC023".toList ∧
    troubleLabel { cfg4 with dtcLabel := some labels } 22 = "      ".toList ∧
    troubleLabel cfg4 0xFFFF = "none".toList := by decide

/-! ### Refusals and the step -/

/-- The numbers of R74 and R221. -/
theorem test_codes :
    [Status.ok, .illegal].map Status.code = [0, 1] ∧
    [Condition.illegalCommand 0, .framingError 0, .checksumFailure 0 0, .rxOverflow 0, .pushFull .rx,
      .stateRecovery 0, .contextRefused .rxi 0, .roleRefused .rxt 0, .dataRefused .txt 0].map
      Condition.code = [1, 2, 3, 4, 5, 6, 7, 8, 9] := by decide

/-- V-C17: code 7. -/
theorem test_popb_is_refused_to_txi :
    refusal (step (about .txi 0x08000000 [] base)) = some (.contextRefused .txi 0x08000000
      [.request .txi 0x08000000 [], .condition (.contextRefused .txi 0x08000000)]) := by decide

/-- V-P17: code 8. -/
theorem test_second_tx_producer_is_refused :
    refusal (step (about .rxt 0x06000001 []
      { base with roles := { Roles.none with txProducer := some .txt } })) =
      some (.roleRefused .rxt 0x06000001
        [.request .rxt 0x06000001 [], .condition (.roleRefused .rxt 0x06000001)]) := by decide

/-- R75: code 9. -/
theorem test_wrong_data_list_is_refused :
    refusal (step (about .txt 0x20000002 [1] base)) = some (.dataRefused .txt 0x20000002
      [.request .txt 0x20000002 [1], .condition (.dataRefused .txt 0x20000002)]) := by decide

/-- R76: an illegal word is answered and nothing else happens to the block. -/
theorem test_illegal_word_is_answered :
    responseOf (step (about .ui 0x0A000000 [] base)) = some (.illegal, 0, []) := by decide

/-- V-C16: the resumption clears the wake and performs the request. -/
theorem test_resume_clears_the_wake :
    leaves (fun t => (t.rx.wake, t.rx.count, t.conts.rxt, t.history))
      (step { base with
        rx := loaded 0 [0x10] true
        conts := base.conts.set .rxt
          (some { word := 0x08000000, done := 0, rest := [], waiting := some .rx })
        schedule := [.agent .rxt] }) =
      some (false, 0, none, [.resume .rxt .rx,
        .response .rxt 0x08000000 { status := .ok, result := 0x10, data := [0x10] }]) := by decide

/-- The host's placed word is what the next step runs, from reset. -/
theorem test_placed_word_runs :
    responseOf (Sys2Proof.core.step (State.reset.withFetchWord 32 0x12000000)) =
      some (.ok, 128, []) := by decide

/-! ### Witnesses: for each statement with hypotheses, a state and operands that meet all of them -/

/-- A step that answers a next state with a property, from the evaluation of the step. -/
theorem next_with {o : Host.Outcome State Fault Refusal} (p : State → Prop) [DecidablePred p]
    (h : leaves (fun t => decide (p t)) o = some true) : ∃ t, o = .next t ∧ p t := by
  cases o with
  | next t => exact ⟨t, rfl, by simpa [leaves] using h⟩
  | fault f => cases h
  | refused r => cases h

/-- A step that answers a next state, from its evaluation. -/
theorem next_exists {o : Host.Outcome State Fault Refusal} (h : leaves (fun _ => true) o = some true) :
    ∃ t, o = .next t := by
  cases o with
  | next t => exact ⟨t, rfl⟩
  | fault f => cases h
  | refused r => cases h

/-- TXT's `WRITE` of 4 bytes is held on TX with two bytes queued and two to copy, its wake has come, and TXT is
to step. -/
def held : State :=
  { base with
    tx := loaded 3 [1, 2] true
    conts := base.conts.set .txt
      (some { word := 0x20000004, done := 2, rest := [9, 8], waiting := some .tx })
    roles := { Roles.none with txProducer := some .txt }
    history := [.request .txt 0x20000004 [1, 2, 9, 8]]
    schedule := [.agent .txt] }

/-- A `WRITE` held on a full TX, TXI about to remove `TX_HYST` bytes, then TXT. -/
def heldFull : State :=
  { base with
    tx := loaded 3 [1, 2, 3, 4] false
    conts := base.conts.set .txt
      (some { word := 0x20000005, done := 4, rest := [9], waiting := some .tx })
    roles := { Roles.none with txProducer := some .txt }
    programs := base.programs.set .txi [{ word := 0x34000000, data := [] }, { word := 0x34000000, data := [] }]
    schedule := [.agent .txi, .agent .txi, .agent .txt] }

/-- RX holds a byte that RXI stored, and RXT is to remove it. -/
def received : State :=
  { about .rxt 0x08000000 [] base with
    rx := loaded 3 [5] true
    history := [.response .rxi 0x30000005 { status := .ok, result := 1, data := [] }] }

/-- The zero frame Z (95_test_vectors 2.4) and the same with the last byte changed. -/
def frameZ : List Byte := 0x55 :: 0xAA :: (List.replicate 274 0 ++ [0xFF])

theorem held_inv : held.Inv :=
  ⟨by decide, by decide, by decide, by decide, by decide, by decide, by decide⟩

theorem heldFull_inv : heldFull.Inv :=
  ⟨by decide, by decide, by decide, by decide, by decide, by decide, by decide⟩

theorem received_inv : received.Inv :=
  ⟨by decide, by decide, by decide, by decide, by decide, by decide, by decide⟩

theorem witness_DecodeEncodeRoundTrip :
    (Instr.popnb .tx 65535).wellFormed = true ∧ (Instr.adc 7).wellFormed = true ∧
      (Instr.mem 255).wellFormed = true := by decide

theorem witness_DecodeFollowsMatchAndMask :
    ("PUSH", (0x01 : BitVec 6), Format.CB) ∈ opcodeTable ∧
      (0x060000FF : Word) &&& Format.mask .CB = matchOf 0x01 := by decide

theorem witness_AssembledLinesDecode :
    assembleLine "UI: popnb tx, 65535".toList = some (some .ui, { word := 0x0E00FFFF, data := [] }) := by
  decide

theorem witness_StepPerformsTheDecodedRequest :
    let s := about .rxt 0x14000000 [] base
    s.cfg.Legal ∧ s.schedule = .agent .rxt :: [] ∧ s.conts.get .rxt = none ∧
      s.programs.get .rxt = { word := 0x14000000, data := [] } :: [] ∧
      decode 0x14000000 = .ok (.avail .rx) := by decide

theorem witness_IllegalWordChangesNothing :
    let s := about .ui 0x0A000000 [] base
    s.cfg.Legal ∧ s.schedule = .agent .ui :: [] ∧ s.conts.get .ui = none ∧
      s.programs.get .ui = { word := 0x0A000000, data := [] } :: [] ∧
      ∀ r ∈ opcodeTable, (0x0A000000 : Word) &&& r.2.2.mask ≠ matchOf r.2.1 := by decide

theorem witness_HeldRequestResumesOnItsWake_awake :
    held.cfg.Legal ∧ held.schedule = .agent .txt :: [] ∧
      held.conts.get .txt =
        some { word := 0x20000004, done := 2, rest := [9, 8], waiting := some .tx } ∧
      decode 0x20000004 = .ok (.write 4) ∧ (held.chan .tx).wake = true := by decide

theorem witness_HeldRequestResumesOnItsWake_asleep :
    let s := { heldFull with schedule := [.agent .txt] }
    s.cfg.Legal ∧ s.schedule = .agent .txt :: [] ∧
      s.conts.get .txt = some { word := 0x20000005, done := 4, rest := [9], waiting := some .tx } ∧
      decode 0x20000005 = .ok (.write 5) ∧ (s.chan .tx).wake = false := by decide

/-- A `WRITE` between two chunks: in flight, not held. -/
theorem witness_HeldRequestResumesOnItsWake_notHeld :
    let s := { heldFull with
      conts := base.conts.set .txt (some { word := 0x20000005, done := 4, rest := [9], waiting := none })
      schedule := [.agent .txt] }
    s.cfg.Legal ∧ s.schedule = .agent .txt :: [] ∧
      s.conts.get .txt = some { word := 0x20000005, done := 4, rest := [9], waiting := none } ∧
      decode 0x20000005 = .ok (.write 5) := by decide

theorem witness_OtherAgentsKeepTheirRequest :
    heldFull.schedule = .agent .txi :: [.agent .txi, .agent .txt] ∧ Agent.txt ≠ Agent.txi ∧
      ∃ t, step heldFull = .next t ∧ (t.conts.get .txt).isSome = true :=
  ⟨by decide, by decide, next_with (fun t => (t.conts.get .txt).isSome = true) (by decide)⟩

theorem witness_ResetStepGivesTheResetValues :
    let s := { held with schedule := [.reset, .agent .txt] }
    s.cfg.Legal ∧ s.schedule = .reset :: [.agent .txt] := by decide

theorem witness_ResetKeepsWhatIsOutsideTheBlock :
    let s := { about .ui 0x14000000 [] held with schedule := [.reset, .agent .ui] }
    s.cfg.Legal ∧ s.schedule = .reset :: [.agent .ui] := by decide

/-- The least and the greatest parameters. -/
theorem witness_ResetSatisfiesTheInvariant :
    Config.Legal { cRx := 1, cTx := 1, txHyst := 1, cntW := 16 } ∧
      Config.Legal { cRx := 65535, cTx := 65535, txHyst := 65535, cntW := 64 } := by decide

theorem witness_EveryStepKeepsTheInvariant : held.Inv ∧ ∃ t, step held = .next t :=
  ⟨held_inv, next_exists (by decide)⟩

theorem witness_NoFaultAndOnlyTheSpecsRefusals :
    (about .rxi 0x20000000 [] base).Inv ∧
      refusal (step (about .rxi 0x20000000 [] base)) = some (.contextRefused .rxi 0x20000000
        [.request .rxi 0x20000000 [], .condition (.contextRefused .rxi 0x20000000)]) :=
  ⟨⟨by decide, by decide, by decide, by decide, by decide, by decide, by decide⟩, by decide⟩

theorem witness_UnfinishedRequestIsNeverRefused :
    held.Inv ∧ held.schedule = .agent .txt :: [] ∧
      held.conts.get .txt =
        some { word := 0x20000004, done := 2, rest := [9, 8], waiting := some .tx } :=
  ⟨held_inv, by decide, by decide⟩

theorem witness_ParametersNeverChange : ∃ t, step received = .next t := next_exists (by decide)

theorem witness_NoWakeIsLost : held.Inv ∧ held.NoLostWake ∧ ∃ t, step held = .next t := by
  refine ⟨held_inv, fun a => ⟨fun h => ?_, fun _ _ => rfl⟩, next_exists (by decide)⟩
  obtain ⟨k, hk, hw⟩ := h
  cases a <;> cases hk
  cases hw

theorem witness_RxChannelIsFifo : received.Inv ∧ received.RxFifo ∧ ∃ t, step received = .next t :=
  ⟨received_inv, by unfold State.RxFifo; decide, next_exists (by decide)⟩

theorem witness_TxChannelIsFifo : held.Inv ∧ held.TxFifo ∧ ∃ t, step held = .next t :=
  ⟨held_inv, by unfold State.TxFifo; decide, next_exists (by decide)⟩

theorem witness_OnlyResetClearsCountersAndConnected :
    let s := about .rxt 0x40000055 [] { base with connected := true, nBytes := 65535 }
    s.schedule.head? ≠ some .reset ∧ ∃ t, step s = .next t ∧ t.nBytes = 0 :=
  ⟨by decide, next_with (fun t => t.nBytes = 0) (by decide)⟩

theorem witness_SnapshotChangesOnlyAtAPublish_published :
    ∃ t, exec (.feed 0xFF) { base with dstate := .awaitChecksumLo, sum := 0x00FF } = .next t ∧
      t.nGood ≠ base.nGood ∧ t.updated = true :=
  next_with (fun t => t.nGood ≠ base.nGood ∧ t.updated = true) (by decide)

theorem witness_SnapshotChangesOnlyAtAPublish_consumed :
    ∃ t, exec .wasupd { base with updated := true } = .next t ∧ t.updated = false :=
  next_with (fun t => t.updated = false) (by decide)

theorem witness_WakeFlagsAreSetOnlyByTheirRules_rx :
    base.tx.Ok base.cfg.cTx ∧ ∃ t, exec (.rxbyte 1) base = .next t ∧ t.rx.wake ≠ base.rx.wake :=
  ⟨by decide, next_with (fun t => t.rx.wake ≠ base.rx.wake) (by decide)⟩

theorem witness_WakeFlagsAreSetOnlyByTheirRules_tx :
    (withTx [1, 2, 3] base).tx.Ok (withTx [1, 2, 3] base).cfg.cTx ∧
      ∃ t, exec .txready (withTx [1, 2, 3] base) = .next t ∧ t.tx.wake ≠ false :=
  ⟨by decide, next_with (fun t => t.tx.wake ≠ false) (by decide)⟩

theorem witness_HoldingRequestsAreRefusedToInterrupts :
    Instr.canHold (.read true 0) = true ∧ (issuedBy .txi 0x25000000 [] base).port.agent.isInterrupt = true ∧
      Instr.canHold (.read false 0) = false := by decide

theorem witness_ARoleBelongsToItsFirstUser :
    let s := issuedBy .rxt 0x06000001 [] { base with roles := { Roles.none with txProducer := some .txt } }
    roleOf (.push .tx 1) = some .txProducer ∧ s.roles.get .txProducer = some .txt ∧
      Agent.txt ≠ s.port.agent ∧
      (Instr.canHold (.push .tx 1) = true → s.port.agent.isInterrupt = false) := by decide

theorem witness_ARoleBelongsToItsFirstUser_next :
    ∃ t, exec .popb (issuedBy .rxt 0x08000000 [] base) = .next t ∧ t.roles.rxConsumer = some .rxt :=
  next_with (fun t => t.roles.rxConsumer = some .rxt) (by decide)

theorem witness_WriteWithTheWrongDataIsRefused :
    let s := issuedBy .txt 0x20000002 [1] base
    s.port.agent.isInterrupt = false ∧ s.mayUse .txProducer ∧ s.port.done = 0 ∧
      s.port.rest.length ≠ 2 := by decide

theorem witness_PushAppendsOrReportsFull_room :
    let s := withRx [1, 2, 3] base
    (s.chan .rx).Ok (Config.cap s.cfg .rx) ∧ s.mayUse (producerRole .rx) ∧
      (s.chan .rx).count < Config.cap s.cfg .rx := by decide

theorem witness_PushAppendsOrReportsFull_full :
    let s := withTx [1, 2, 3, 4] base
    (s.chan .tx).Ok (Config.cap s.cfg .tx) ∧ s.mayUse (producerRole .tx) ∧
      (s.chan .tx).count = Config.cap s.cfg .tx := by decide

theorem witness_PopbRemovesTheOldestOrHolds_byte :
    let s := issuedBy .rxt 0x08000000 [] { base with rx := loaded 3 [7] true }
    s.rx.Ok s.cfg.cRx ∧ s.mayUse .rxConsumer ∧ s.port.agent.isInterrupt = false ∧
      0 < s.rx.count := by decide

theorem witness_PopbRemovesTheOldestOrHolds_empty :
    let s := issuedBy .rxt 0x08000000 [] base
    s.rx.Ok s.cfg.cRx ∧ s.mayUse .rxConsumer ∧ s.port.agent.isInterrupt = false ∧
      s.rx.count = 0 := by decide

theorem witness_PopnbRemovesUpToN :
    let s := withTx [1, 2, 3, 4] base
    (s.chan .tx).Ok (Config.cap s.cfg .tx) ∧ s.mayUse (consumerRole .tx) ∧
      s.cfg.cTx - s.tx.count < s.cfg.txHyst ∧
      s.cfg.txHyst ≤ s.cfg.cTx - s.tx.count + min s.tx.count 2 := by decide

theorem witness_AvailAndFreeSumToCapacity :
    let s := withRx [1, 2, 3, 4] base
    s.cfg.Legal ∧ (s.chan .rx).Ok (Config.cap s.cfg .rx) := by decide

theorem witness_PushesFillAChannelOnce :
    let s := { base with tx := loaded 3 [] false }
    (s.chan .tx).Ok (Config.cap s.cfg .tx) ∧ (s.chan .tx).count = 0 ∧ s.mayUse (producerRole .tx) ∧
      ([1, 2, 3, 4] : List Byte).length = Config.cap s.cfg .tx := by decide

/-- `WRITE 0`: all of its bytes are queued at once. -/
theorem witness_WriteCopiesAChunkOrHolds_done :
    let s := issuedBy .txt 0x20000000 [] base
    s.tx.Ok s.cfg.cTx ∧ s.mayUse .txProducer ∧ s.port.agent.isInterrupt = false ∧
      s.port.done + s.port.rest.length = 0 ∧ s.port.done = 0 := by decide

/-- The chunk is exactly what is left. -/
theorem witness_WriteCopiesAChunkOrHolds_last :
    let s := issuedBy .txt 0x20000001 [9] (withTx [1, 2, 3] base)
    s.tx.Ok s.cfg.cTx ∧ s.mayUse .txProducer ∧ s.port.agent.isInterrupt = false ∧
      s.port.done + s.port.rest.length = 1 ∧ s.port.done < 1 ∧ s.tx.count < s.cfg.cTx ∧
      1 = min (s.cfg.cTx - s.tx.count) (1 - s.port.done) ∧ s.port.done + 1 = 1 := by decide

/-- One byte more than fits. -/
theorem witness_WriteCopiesAChunkOrHolds_part :
    let s := issuedBy .txt 0x20000002 [9, 8] (withTx [1, 2, 3] base)
    s.tx.Ok s.cfg.cTx ∧ s.mayUse .txProducer ∧ s.port.agent.isInterrupt = false ∧
      s.port.done + s.port.rest.length = 2 ∧ s.port.done < 2 ∧ s.tx.count < s.cfg.cTx ∧
      1 = min (s.cfg.cTx - s.tx.count) (2 - s.port.done) ∧ s.port.done + 1 < 2 := by decide

theorem witness_WriteCopiesAChunkOrHolds_full :
    let s := issuedBy .txt 0x20000001 [9] (withTx [1, 2, 3, 4] base)
    s.tx.Ok s.cfg.cTx ∧ s.mayUse .txProducer ∧ s.port.agent.isInterrupt = false ∧
      s.port.done + s.port.rest.length = 1 ∧ s.port.done < 1 ∧ s.tx.count = s.cfg.cTx := by decide

/-- A waiting and a `nowait` form, at one byte and at none. -/
theorem witness_ReadTakesWhatIsThere :
    let s := issuedBy .rxt 0x25000000 [] (withRx [1] base)
    let e := issuedBy .rxt 0x25000000 [] base
    s.rx.Ok s.cfg.cRx ∧ s.mayUse .rxConsumer ∧ (true = true → s.port.agent.isInterrupt = false) ∧
      1 ≤ s.rx.count ∧
      e.rx.Ok e.cfg.cRx ∧ e.mayUse .rxConsumer ∧ (true = true → e.port.agent.isInterrupt = false) ∧
      e.rx.count = 0 := by decide

theorem witness_RxbyteStoresOrDropsTheNewest :
    (withRx [1, 2, 3] base).rx.Ok 4 ∧ (withRx [1, 2, 3] base).mayUse .rxProducer ∧
      (withRx [1, 2, 3] base).rx.count < 4 ∧
      (withRx [1, 2, 3, 4] base).rx.Ok 4 ∧ (withRx [1, 2, 3, 4] base).mayUse .rxProducer ∧
      (withRx [1, 2, 3, 4] base).rx.count = 4 := by decide

theorem witness_TxreadyRemovesTheOldest :
    (withTx [1, 2, 3] base).tx.Ok 4 ∧ (withTx [1, 2, 3] base).mayUse .txConsumer ∧
      0 < (withTx [1, 2, 3] base).tx.count ∧
      base.tx.Ok 4 ∧ base.mayUse .txConsumer ∧ base.tx.count = 0 := by decide

theorem witness_WakeComesAtTheHysteresis :
    let s := withTx [1, 2, 3, 4] base
    s.cfg.Legal ∧ s.tx.Ok s.cfg.cTx ∧ s.tx.count = s.cfg.cTx ∧ s.tx.wake = false ∧
      s.mayUse .txConsumer ∧ 2 ≤ s.cfg.cTx ∧ s.cfg.txHyst ≤ 2 := by decide

theorem witness_HeldWriteResumesAfterHysteresis :
    heldFull.Inv ∧
      heldFull.conts.get .txt =
        some { word := 0x20000005, done := 4, rest := [9], waiting := some .tx } ∧
      heldFull.tx.count = heldFull.cfg.cTx ∧ heldFull.tx.wake = false ∧
      (heldFull.roles.txConsumer = none ∨ heldFull.roles.txConsumer = some .txi) ∧
      heldFull.programs.txi =
        List.replicate heldFull.cfg.txHyst { word := 0x34000000, data := [] } ++ [] ∧
      heldFull.schedule = List.replicate heldFull.cfg.txHyst (.agent .txi) ++ .agent .txt :: [] :=
  ⟨heldFull_inv, by decide, by decide, by decide, by decide, by decide, by decide⟩

/-- A copying `WRITE`, one with nothing to copy, and one on a full TX. -/
theorem witness_TransmitterRunsUntilAnInvalidTxready_write :
    (∃ t, exec (.write 1) (issuedBy .txt 0x20000001 [9] (withTx [1, 2, 3] base)) = .next t ∧
      decode 0x20000001 = .ok (.write 1)) ∧
    (∃ t, exec (.write 0) (issuedBy .txt 0x20000000 [] base) = .next t ∧
      decode 0x20000000 = .ok (.write 0)) ∧
    (∃ t, exec (.write 1) (issuedBy .txt 0x20000001 [9] (withTx [1, 2, 3, 4] base)) = .next t ∧
      (withTx [1, 2, 3, 4] base).cfg.cTx ≤ (withTx [1, 2, 3, 4] base).tx.count) :=
  ⟨next_with (fun _ => decode 0x20000001 = .ok (.write 1)) (by decide),
    next_with (fun _ => decode 0x20000000 = .ok (.write 0)) (by decide),
    next_with (fun _ => (withTx [1, 2, 3, 4] base).cfg.cTx ≤ (withTx [1, 2, 3, 4] base).tx.count)
      (by decide)⟩

/-- A `TXREADY` on an empty TX and on one byte, and another request. -/
theorem witness_TransmitterRunsUntilAnInvalidTxready_other :
    decode 0x34000000 = .ok .txready ∧
    (∃ t, exec .txready (issuedBy .txi 0x34000000 [] base) = .next t ∧ t.tx.count = 0) ∧
    (∃ t, exec .txready (issuedBy .txi 0x34000000 [] (withTx [1] base)) = .next t ∧ t.tx.count = 0) ∧
    (∃ t, exec (.push .tx 7) (issuedBy .txt 0x06000007 [] base) = .next t ∧
      decode 0x06000007 = .ok (.push .tx 7)) ∧
    (∃ t, perform (issuedBy .ui 0x0A000000 [] base) = .next t ∧
      decode 0x0A000000 = .error .strayChannel) :=
  ⟨by decide, next_with (fun t => t.tx.count = 0) (by decide),
    next_with (fun t => t.tx.count = 0) (by decide),
    next_with (fun _ => decode 0x06000007 = .ok (.push .tx 7)) (by decide),
    next_with (fun _ => decode 0x0A000000 = .error .strayChannel) (by decide)⟩

/-- The running transmitter's last `TXREADY`, and one that returns a byte. -/
theorem witness_TransmitterRunsUntilAnInvalidTxready_step :
    let s := { about .txi 0x34000000 [] base with history := [.txStart] }
    let u := { about .txi 0x34000000 [] (withTx [1] base) with history := [.txStart] }
    s.schedule.head? ≠ some .reset ∧ txiOwesTxready s = true ∧
      (∃ t, step s = .next t ∧ txiOwesTxready t = false) ∧
    u.schedule.head? ≠ some .reset ∧ txiOwesTxready u = true ∧
      (∃ t, step u = .next t ∧ txiOwesTxready t = true) :=
  ⟨by decide, by decide, next_with (fun t => txiOwesTxready t = false) (by decide), by decide, by decide,
    next_with (fun t => txiOwesTxready t = true) (by decide)⟩

theorem witness_FeedHuntsForSync :
    base.mayUse .decoderFeeder ∧ base.dstate = .awaitSync1 ∧
      ({ base with dstate := .awaitSync2 } : State).mayUse .decoderFeeder := by decide

theorem witness_FeedStoresABodyByte :
    let s := { base with dstate := .readingBody, idx := 255 }
    s.mayUse .decoderFeeder ∧ s.dstate = .readingBody ∧ s.idx.toNat < 256 ∧ s.idx.toNat = 255 := by
  decide

theorem witness_FeedOutsideTheStagingCopyFaults :
    let s := { base with dstate := .readingBody, idx := 256 }
    s.mayUse .decoderFeeder ∧ s.dstate = .readingBody ∧ 256 ≤ s.idx.toNat := by decide

theorem witness_FeedDiscardsTheStatusByte :
    let s := { base with dstate := .readingStatus, idx := 256 }
    s.mayUse .decoderFeeder ∧ s.dstate = .readingStatus := by decide

/-- The first byte, with nothing stored yet, and the last, whose word has been started. -/
theorem witness_FeedStoresAnAnalogByte :
    let s := { base with dstate := .readingAnalog, idx := 0 }
    let t := { base with dstate := .readingAnalog, idx := 15, adcS := [(7, 0x34)] }
    s.mayUse .decoderFeeder ∧ s.dstate = .readingAnalog ∧ s.idx.toNat < 16 ∧
      (s.idx.toNat % 2 = 1 → Memory.read? s.adcS (s.idx.toNat / 2) = some 0) ∧
      t.mayUse .decoderFeeder ∧ t.dstate = .readingAnalog ∧ t.idx.toNat < 16 ∧
      (t.idx.toNat % 2 = 1 → Memory.read? t.adcS (t.idx.toNat / 2) = some 0x34) := by decide

theorem witness_FeedAssemblesAnAnalogWord :
    let s := { base with dstate := .readingAnalog, idx := 14 }
    s.mayUse .decoderFeeder ∧ s.dstate = .readingAnalog ∧ s.idx.toNat = 2 * 7 ∧ 7 < 8 := by decide

theorem witness_FeedComparesTheChecksum :
    let s := { base with dstate := .awaitChecksumHi, sum := 0x807F }
    s.mayUse .decoderFeeder ∧ s.dstate = .awaitChecksumHi ∧
      s.sum.toNat = 256 * (0x80 : Byte).toNat + (0x7F : Byte).toNat ∧
      s.sum.toNat ≠ 256 * (0x80 : Byte).toNat + (0x7E : Byte).toNat := by decide

theorem witness_FeedRecoversFromCodeSeven :
    let s := { base with dstate := .unrecognized }
    s.mayUse .decoderFeeder ∧ s.dstate.code = 7 := by decide

theorem witness_DoubledSyncByteIsMissed :
    base.mayUse .decoderFeeder ∧ base.dstate = .awaitSync1 := by decide

set_option maxRecDepth 10000 in
/-- Frame Z meets the checksum; with its last byte changed it does not. -/
theorem witness_FrameIsPublishedIffItsChecksumMatches :
    base.mayUse .decoderFeeder ∧ base.dstate = .awaitSync1 ∧ frameZ.length = 277 ∧
      frameZ[0]? = some 0x55 ∧ frameZ[1]? = some 0xAA ∧
      ((frameZ.take 275).map BitVec.toNat).sum % 2 ^ 16 =
        256 * (frameZ.getD 275 0).toNat + (frameZ.getD 276 0).toNat ∧
      (((frameZ.set 276 0).take 275).map BitVec.toNat).sum % 2 ^ 16 ≠
        256 * ((frameZ.set 276 0).getD 275 0).toNat + ((frameZ.set 276 0).getD 276 0).toNat := by
  decide

set_option maxRecDepth 10000 in
/-- The first and the last position. -/
theorem witness_OneChangedByteIsDetected :
    base.mayUse .decoderFeeder ∧ base.dstate = .awaitSync1 ∧ frameZ.length = 277 ∧
      frameZ[0]? = some 0x55 ∧ frameZ[1]? = some 0xAA ∧
      ((frameZ.take 275).map BitVec.toNat).sum % 2 ^ 16 =
        256 * (frameZ.getD 275 0).toNat + (frameZ.getD 276 0).toNat ∧
      2 ≤ 2 ∧ 2 ≤ 276 ∧ (1 : Byte) ≠ frameZ.getD 2 0 ∧ 2 ≤ 276 ∧ 276 ≤ 276 ∧
      (1 : Byte) ≠ frameZ.getD 276 0 := by decide

theorem witness_WasupdConsumesTheFlag :
    ({ base with updated := true } : State).mayUse .updateConsumer ∧
      ∃ t, exec .wasupd { base with updated := true } = .next t :=
  ⟨by decide, next_exists (by decide)⟩

theorem witness_SnapshotReadsAnswer :
    Memory.read? sample.memP 0xF3 = some 100 ∧ Memory.read? sample.memP 0 = none ∧
      Memory.read? sample.adcP 2 = some 0x0200 ∧ Memory.read? sample.adcP 7 = none := by decide

theorem witness_QueriesChangeNothing : roleOf (.dtc 65535) = none ∧ roleOf .conn = none := by decide

theorem witness_OilPressureIsTheRoundedCalibration :
    (({ base with adcP := [(2, 101)] } : State).adc 2).toNat < 102 ∧
      921 < (({ base with adcP := [(2, 922)] } : State).adc 2).toNat ∧
      102 ≤ (({ base with adcP := [(2, 102)] } : State).adc 2).toNat ∧
      (({ base with adcP := [(2, 921)] } : State).adc 2).toNat ≤ 921 := by decide

/-- The bits of the trouble-code bytes of the sample: codes 0, 2 and 23. -/
theorem witness_DtcAnswersTheKthSetBit :
    let on := fun c => (sample.mem (0x12 + c / 8)).getLsbD (c % 8)
    (∀ c, on c = (sample.mem (0x12 + c / 8)).getLsbD (c % 8)) ∧
      on 23 = true ∧ (List.range 23).countP on = 2 ∧ (List.range 24).countP on ≤ 3 :=
  ⟨fun _ => rfl, by decide⟩

theorem witness_ViewDependsOnlyOnItsElements :
    let t := { sample with adcP := Memory.write sample.adcP 0 7, nGood := 3 }
    Instr.run ∈ [Instr.engspd, .gndspd, .oilp, .wtemp, .volt, .afr, .ses, .run] ∧
      (∀ a ∈ [0x01, 0x0B, 0x12, 0x13, 0x14, 0x34, 0x45, 0xE3, 0xF3], sample.mem a = t.mem a) ∧
      (∀ j ∈ [1, 2], sample.adc j = t.adc j) := by decide

end Sys2Proof.Tests
end

/-! The statements of 00_scope: a step performs the decoded request (R12, R14, R21), and no step from a state of
the invariant faults or is refused but by codes 7, 8 and 9 (R13, R221, R223). -/

namespace Sys2Proof.Machine

open Host (Outcome)

/-! ### A step of an idle agent -/

/-- The step of an agent that has no request in flight and a request to issue: the issued request is performed
(R12, R21). -/
theorem step_issue {s : State} {a : Agent} {later : List Choice} {q : Request} {qs : List Request}
    (hl : s.cfg.Legal) (hs : s.schedule = .agent a :: later) (hc : s.conts.get a = none)
    (hp : s.programs.get a = q :: qs) :
    step s = perform (({ s with schedule := later } : State).issue a q qs) := by
  have hport : ({ s with schedule := later } : State).atPort a =
      some (({ s with schedule := later } : State).issue a q qs) := by
    rw [State.atPort_idle (s := { s with schedule := later }) hc]
    simp only [hp]
  rw [step_agent hl hs, hport]

/-- Settles O6: the idle agent's step performs the request it issues, and that word decodes. -/
theorem stepPerformsTheDecodedRequest : Obligations.StepPerformsTheDecodedRequest := by
  intro s a later q qs i hl hs hc hp hd
  calc step s = perform (({ s with schedule := later } : State).issue a q qs) := step_issue hl hs hc hp
    _ = exec i (({ s with schedule := later } : State).issue a q qs) := perform_of_decode hd

/-! ### The outcomes the spec allows -/

/-- The outcomes that R13 and R221 allow a step that performs its request after the history `h`: a next state, or
a refusal of code 7, 8 or 9 that carries `h` with the recorded condition last. A fault is not among them. -/
inductive Allowed (h : List Event) : Outcome State Fault Refusal → Prop
  | next (t : State) : Allowed h (.next t)
  | context (a : Agent) (w : Word) :
      Allowed h (.refused (.contextRefused a w (h ++ [.condition (.contextRefused a w)])))
  | role (a : Agent) (w : Word) :
      Allowed h (.refused (.roleRefused a w (h ++ [.condition (.roleRefused a w)])))
  | data (a : Agent) (w : Word) :
      Allowed h (.refused (.dataRefused a w (h ++ [.condition (.dataRefused a w)])))

theorem Allowed.not_fault {h : List Event} {f : Fault} : ¬ Allowed h (.fault f) := nofun

/-- What an allowed refusal is. -/
theorem Allowed.refused_cases {h : List Event} {r : Refusal} (hr : Allowed h (.refused r)) :
    ∃ a w,
      r = .contextRefused a w (h ++ [.condition (.contextRefused a w)]) ∨
      r = .roleRefused a w (h ++ [.condition (.roleRefused a w)]) ∨
      r = .dataRefused a w (h ++ [.condition (.dataRefused a w)]) := by
  cases hr with
  | context a w => exact ⟨a, w, .inl rfl⟩
  | role a w => exact ⟨a, w, .inr (.inl rfl)⟩
  | data a w => exact ⟨a, w, .inr (.inr rfl)⟩

/-! ### The checks of R222 add no outcome but their own refusal -/

section Checks

variable {s : State} {run : State → Outcome State Fault Refusal}

theorem taskOnly_allowed (h : Allowed s.history (run s)) : Allowed s.history (taskOnly s run) := by
  cases hi : s.port.agent.isInterrupt with
  | false => rw [taskOnly_task hi]; exact h
  | true => rw [taskOnly_interrupt hi, refuseContext_eq]; exact .context _ _

theorem asRole_allowed {r : Role}
    (h : ∀ roles, Allowed s.history (run { s with roles := roles })) :
    Allowed s.history (asRole r s run) := by
  rcases asRole_cases r s run with ⟨-, heq⟩ | ⟨-, heq⟩ <;> rw [heq]
  · exact h _
  · rw [refuseRole_eq]; exact .role _ _

theorem withData_allowed {n : Nat} (h : Allowed s.history (run s)) :
    Allowed s.history (withData n s run) := by
  unfold withData
  split
  · exact h
  · rw [refuseData_eq]; exact .data _ _

end Checks

/-! ### Each request -/

theorem execPush_allowed (ch : Chan) (b : Byte) (s : State) : Allowed s.history (execPush ch b s) := by
  refine asRole_allowed fun _ => ?_
  split <;> exact .next _

theorem execPopb_allowed (s : State) : Allowed s.history (execPopb s) := by
  refine taskOnly_allowed (asRole_allowed fun _ => ?_)
  split <;> exact .next _

theorem execPopnb_allowed (ch : Chan) (n : Nat) (s : State) : Allowed s.history (execPopnb ch n s) :=
  asRole_allowed fun _ => .next _

theorem writeStep_allowed (h : List Event) (n : Nat) (s : State) : Allowed h (writeStep n s) := by
  unfold writeStep
  split
  · exact .next _
  · split
    · split <;> exact .next _
    · exact .next _

theorem execWrite_allowed (n : Nat) (s : State) : Allowed s.history (execWrite n s) := by
  refine taskOnly_allowed (asRole_allowed fun roles => ?_)
  exact withData_allowed (s := { s with roles := roles }) (writeStep_allowed _ n _)

theorem readStep_allowed (h : List Event) (wait : Bool) (n : Nat) (s : State) :
    Allowed h (readStep wait n s) := by
  unfold readStep
  split
  · exact .next _
  · split <;> exact .next _

theorem execRead_allowed (wait : Bool) (n : Nat) (s : State) : Allowed s.history (execRead wait n s) := by
  unfold execRead
  split
  · exact taskOnly_allowed (asRole_allowed fun _ => readStep_allowed _ true n _)
  · exact asRole_allowed fun _ => readStep_allowed _ false n _

theorem execRxbyte_allowed (b : Byte) (s : State) : Allowed s.history (execRxbyte b s) := by
  refine asRole_allowed fun _ => ?_
  split <;> exact .next _

theorem execTxready_allowed (s : State) : Allowed s.history (execTxready s) := by
  refine asRole_allowed fun _ => ?_
  split <;> exact .next _

theorem execWasupd_allowed (s : State) : Allowed s.history (execWasupd s) :=
  asRole_allowed fun _ => .next _

/-- `FEED` is the one request that can fault, and only at an index `mem_s` does not have (log 10). -/
theorem execFeed_allowed (b : Byte) {s : State} (h : badStagingIndex s = false) :
    Allowed s.history (execFeed b s) := by
  refine asRole_allowed fun roles => ?_
  have hroles : badStagingIndex { s with roles := roles } = false := h
  simp only [hroles, Bool.false_eq_true, if_false]
  exact .next _

/-- Every request, from a state in which a `FEED` has its staging cell. -/
theorem exec_allowed (i : Instr) {s : State} (h : badStagingIndex s = false) :
    Allowed s.history (exec i s) := by
  cases i with
  | push ch b => exact execPush_allowed ch b s
  | popb => exact execPopb_allowed s
  | popnb ch n => exact execPopnb_allowed ch n s
  | wasupd => exact execWasupd_allowed s
  | write n => exact execWrite_allowed n s
  | read wait n => exact execRead_allowed wait n s
  | rxbyte b => exact execRxbyte_allowed b s
  | txready => exact execTxready_allowed s
  | feed b => exact execFeed_allowed b h
  | free | avail | wspace | ravail | rxlost | nbytes | ngood | nbad | conn | mem | adc | engspd | gndspd
  | oilp | wtemp | volt | afr | ses | run | dtc => exact .next _

theorem perform_allowed {s : State} (h : badStagingIndex s = false) : Allowed s.history (perform s) := by
  cases hd : decode s.port.word with
  | error e => rw [perform_of_error hd]; exact .next _
  | ok i => rw [perform_of_decode hd]; exact exec_allowed i h

/-! ### The state a step performs its request in -/

/-- Everything `atPort` can be: the issue of the next request, or the request in flight taken up again, after its
Resume if it was held and its wake has come (R12, R103). -/
theorem State.atPort_cases {s u : State} {a : Agent} (h : s.atPort a = some u) :
    (∃ q qs, s.programs.get a = q :: qs ∧ u = s.issue a q qs) ∨
    (∃ k, s.conts.get a = some k ∧
      ((k.waiting = none ∧ u = s.reenter a k) ∨
        ∃ ch, k.waiting = some ch ∧ (s.chan ch).wake = true ∧ u = (s.resumed a ch).reenter a k)) := by
  cases hc : s.conts.get a with
  | none =>
    rw [State.atPort_idle hc] at h
    cases hp : s.programs.get a with
    | nil => simp [hp] at h
    | cons q qs => exact .inl ⟨q, qs, rfl, by simpa [hp] using h.symm⟩
  | some k =>
    refine .inr ⟨k, rfl, ?_⟩
    cases hw : k.waiting with
    | none =>
      rw [State.atPort_inFlight hc hw] at h
      exact .inl ⟨rfl, (Option.some.inj h).symm⟩
    | some ch =>
      rw [State.atPort_held hc hw] at h
      split at h
      · next hwake => exact .inr ⟨ch, rfl, hwake, (Option.some.inj h).symm⟩
      · cases h

/-- Taking a request to the port only adds to the history, and leaves the decoder alone. -/
theorem State.atPort_history_decoder {s u : State} {a : Agent} (h : s.atPort a = some u) :
    (∃ es, u.history = s.history ++ es) ∧ u.dstate = s.dstate ∧ u.idx = s.idx := by
  rcases State.atPort_cases h with ⟨q, qs, -, rfl⟩ | ⟨k, -, ⟨-, rfl⟩ | ⟨ch, -, -, rfl⟩⟩
  · exact ⟨⟨_, State.issue_history s a q qs⟩, rfl, rfl⟩
  · exact ⟨⟨[], by simp⟩, rfl, rfl⟩
  · exact ⟨⟨_, State.resumed_history s a ch⟩, State.resumed_dstate s a ch, State.resumed_idx s a ch⟩

/-- The staging index is in range wherever the decoder's invariant puts it (R155). -/
theorem badStagingIndex_of_decoderOk {s : State} (h : s.DecoderOk) : badStagingIndex s = false := by
  obtain ⟨-, hbody, -⟩ := h
  simpa [badStagingIndex] using hbody

/-! ### Every step -/

/-- A step from a state of the invariant has an outcome that R13 and R221 allow, the events `es` of the step
standing between the history before it and what ends it. -/
theorem step_allowed {s : State} (hinv : s.Inv) : ∃ es, Allowed (s.history ++ es) (step s) := by
  obtain ⟨hl, -, -, -, hdec, -, -⟩ := hinv
  match hs : s.schedule with
  | [] => exact ⟨[], step_idle hl hs ▸ .next _⟩
  | .reset :: later => exact ⟨[], step_reset hl hs ▸ .next _⟩
  | .agent a :: later =>
    rw [step_agent hl hs]
    cases hp : ({ s with schedule := later } : State).atPort a with
    | none => exact ⟨[], .next _⟩
    | some u =>
      obtain ⟨⟨es, hes⟩, hdstate, hidx⟩ := State.atPort_history_decoder hp
      have hbad : badStagingIndex u = false := by
        rw [badStagingIndex, hdstate, hidx]
        exact badStagingIndex_of_decoderOk hdec
      exact ⟨es, hes ▸ perform_allowed hbad⟩

/-- Settles O14: no allowed outcome is a fault, and the allowed refusals are those of codes 7, 8 and 9. -/
theorem noFaultAndOnlyTheSpecsRefusals : Obligations.NoFaultAndOnlyTheSpecsRefusals := by
  intro s hinv
  obtain ⟨es, hstep⟩ := step_allowed hinv
  constructor
  · intro f hf
    exact Allowed.not_fault (hf ▸ hstep)
  · intro r hr
    obtain ⟨a, w, hcases⟩ := (hr ▸ hstep).refused_cases
    exact ⟨a, w, es, hcases⟩

end Sys2Proof.Machine

/-! The statements of 10_state: what a request changes and what it leaves alone, the invariant of the machine
(R25, R28, R33, R34, R37, R180, R226, R227), the wake flags (R24, R35, R131) and reset (R39, R250, R252). -/

namespace Sys2Proof.Machine

open Host (Outcome)

/-! ### What a request can do

`Effect`, `Waits` and `Performed` list the branches of `exec` as relations, guards included; `exec_next` says once
that a request which answers a next state takes one of them, after the checks of R222. Every statement about all
requests is then a case analysis on them. -/

/-- The state once its agent has passed the role check of a request in role `r`, if in any (R227). -/
def State.claim (s : State) (r : Option Role) : State := { s with roles := s.rolesUsing r }

/-- The context check (R226) and the role check (R227) let the agent at the port issue `i`. -/
structure Admitted (i : Instr) (s : State) : Prop where
  context : i.canHold = true → s.port.agent.isInterrupt = false
  role : ∀ r, roleOf i = some r → s.mayUse r

/-- `Effect i s u result data`: a request `i` that completes in this step leaves `s` as `u` before its response,
which carries `result` and `data`. Its role is already claimed in `s`. -/
inductive Effect : Instr → State → State → Word → List Byte → Prop
  | query {i : Instr} {s : State} {r : Word} (hi : roleOf i = none) : Effect i s s r []
  | push {ch : Chan} {b : Byte} {s : State} (hroom : (s.chan ch).count < Config.cap s.cfg ch) :
      Effect (.push ch b) s ((s.putByte ch b).signalWrite ch) 1 []
  | pushFull {ch : Chan} {b : Byte} {s : State} (hfull : ¬ (s.chan ch).count < Config.cap s.cfg ch) :
      Effect (.push ch b) s (s.meets (.pushFull ch)) 0 []
  | popb {s : State} (hc : 0 < s.rx.count) :
      Effect .popb s (s.take .rx 1).2 ((s.rx.head (Config.freeByte s.draws)).setWidth 32) (s.take .rx 1).1
  | popnb {ch : Chan} {n k : Nat} {s : State} (hk : k = min (s.chan ch).count n) :
      Effect (.popnb ch n) s ((s.take ch k).2.signalRemoval ch (s.freeOf ch) (s.freeOf ch + k)) (resultOf k)
        (s.take ch k).1
  | written {n : Nat} {s : State} (hdata : s.port.done + s.port.rest.length = n) (hdone : s.port.done = n) :
      Effect (.write n) s s (resultOf n) []
  | lastChunk {n : Nat} {s : State} (hdata : s.port.done + s.port.rest.length = n)
      (hfree : 0 < s.freeOf .tx) (hdone : (s.writeChunk n).port.done = n) :
      Effect (.write n) s (s.writeChunk n) (resultOf n) []
  | read {wait : Bool} {n k : Nat} {s : State} (hc : 1 ≤ s.rx.count) (hk : k = min s.rx.count n) :
      Effect (.read wait n) s (s.take .rx k).2 (resultOf k) (s.take .rx k).1
  | readEmpty {n : Nat} {s : State} (hc : ¬ 1 ≤ s.rx.count) : Effect (.read false n) s s 0 []
  | rxbyte {b : Byte} {s : State} (hroom : s.rx.count < s.cfg.cRx) :
      Effect (.rxbyte b) s ((s.putByte .rx b).signalWrite .rx) 1 []
  | rxbyteLost {b : Byte} {s : State} (hfull : ¬ s.rx.count < s.cfg.cRx) :
      Effect (.rxbyte b) s ({ s with rxLost := bump s.cfg s.rxLost }.meets (.rxOverflow b)) 0 []
  | txready {s : State} (hc : 0 < s.tx.count) :
      Effect .txready s ((s.take .tx 1).2.txHyst (s.freeOf .tx) (s.freeOf .tx + 1))
        (0x100#32 ||| (s.tx.head (Config.freeByte s.draws)).setWidth 32) []
  | txreadyEmpty {s : State} (hc : ¬ 0 < s.tx.count) : Effect .txready s s 0 []
  | feed {b : Byte} {s : State} (hidx : badStagingIndex s = false) :
      Effect (.feed b) s (feedArm b { s with nBytes := bump s.cfg s.nBytes }) 0 []
  | wasupd {s : State} : Effect .wasupd s { s with updated := false } (boolResult s.updated) []

/-- `Waits i s ch`: in `s`, with its role claimed, the request `i` is held on the wake flag of `ch` (R103). -/
inductive Waits : Instr → State → Chan → Prop
  | popb {s : State} (hc : ¬ 0 < s.rx.count) : Waits .popb s .rx
  | read {n : Nat} {s : State} (hc : ¬ 1 ≤ s.rx.count) : Waits (.read true n) s .rx
  | write {n : Nat} {s : State} (hdata : s.port.done + s.port.rest.length = n) (hmore : s.port.done ≠ n)
      (hfull : ¬ 0 < s.freeOf .tx) : Waits (.write n) s .tx

/-- `Performed i s t`: the step of a request `i`, from its role claimed in `s` to the next state `t`. -/
inductive Performed : Instr → State → State → Prop
  | completes {i : Instr} {s u : State} {r : Word} {d : List Byte} (h : Effect i s u r d) :
      Performed i s (u.answer .ok r d)
  | holds {i : Instr} {s : State} {ch : Chan} (h : Waits i s ch) :
      Performed i s ((s.suspend (some ch)).emit (.hold s.port.agent ch))
  | staysInFlight {n : Nat} {s : State} (hdata : s.port.done + s.port.rest.length = n)
      (hfree : 0 < s.freeOf .tx) (hmore : (s.writeChunk n).port.done ≠ n) :
      Performed (.write n) s ((s.writeChunk n).suspend none)

section Branches

variable {s t : State}

/-- A request in a role, given what it does once the role is claimed. -/
theorem asRole_performed {i : Instr} {r : Role} {run : State → Outcome State Fault Refusal}
    (hr : roleOf i = some r) (hctx : i.canHold = true → s.port.agent.isInterrupt = false)
    (hrun : run (s.claim (some r)) = .next t → Performed i (s.claim (some r)) t)
    (h : asRole r s run = .next t) : Admitted i s ∧ Performed i (s.claim (roleOf i)) t := by
  obtain ⟨hmay, h⟩ := asRole_next h
  rw [hr]
  exact ⟨⟨hctx, fun q hq => by cases hr.symm.trans hq; exact hmay⟩, hrun h⟩

/-- A request that uses no role and only answers. -/
theorem respond_performed {i : Instr} {r : Word} (hi : roleOf i = none) (hctx : i.canHold = false)
    (h : respond s r [] = .next t) : Admitted i s ∧ Performed i (s.claim (roleOf i)) t := by
  cases h
  rw [hi]
  exact ⟨⟨by simp [hctx], by simp [hi]⟩, .completes (.query hi)⟩

theorem execPush_next {ch : Chan} {b : Byte} (h : execPush ch b s = .next t) :
    Admitted (.push ch b) s ∧ Performed (.push ch b) (s.claim (some (producerRole ch))) t := by
  refine asRole_performed rfl nofun (fun h => ?_) h
  split at h
  · next hroom => cases h; exact .completes (.push hroom)
  · next hfull => cases h; exact .completes (.pushFull hfull)

theorem execPopb_next (h : execPopb s = .next t) :
    Admitted .popb s ∧ Performed .popb (s.claim (some .rxConsumer)) t := by
  obtain ⟨htask, h⟩ := taskOnly_next h
  refine asRole_performed rfl (fun _ => htask) (fun h => ?_) h
  split at h
  · next hc => cases h; exact .completes (.popb hc)
  · next hc => cases h; exact .holds (.popb hc)

theorem execPopnb_next {ch : Chan} {n : Nat} (h : execPopnb ch n s = .next t) :
    Admitted (.popnb ch n) s ∧ Performed (.popnb ch n) (s.claim (some (consumerRole ch))) t := by
  refine asRole_performed rfl nofun (fun h => ?_) h
  cases h
  exact .completes (.popnb rfl)

theorem writeStep_next {n : Nat} (hdata : s.port.done + s.port.rest.length = n)
    (h : writeStep n s = .next t) : Performed (.write n) s t := by
  unfold writeStep at h
  split at h
  · next hdone => cases h; exact .completes (.written hdata hdone)
  · next hmore =>
    split at h
    · next hfree =>
      split at h
      · next hdone => cases h; exact .completes (.lastChunk hdata hfree hdone)
      · next hmore => cases h; exact .staysInFlight hdata hfree hmore
    · next hfull => cases h; exact .holds (.write hdata hmore hfull)

theorem execWrite_next {n : Nat} (h : execWrite n s = .next t) :
    Admitted (.write n) s ∧ Performed (.write n) (s.claim (some .txProducer)) t := by
  obtain ⟨htask, h⟩ := taskOnly_next h
  refine asRole_performed rfl (fun _ => htask) (fun h => ?_) h
  obtain ⟨hdata, h⟩ := withData_next h
  exact writeStep_next hdata h

theorem readStep_next {wait : Bool} {n : Nat} (h : readStep wait n s = .next t) :
    Performed (.read wait n) s t := by
  unfold readStep at h
  split at h
  · next hc => cases h; exact .completes (.read hc rfl)
  · next hc =>
    cases wait with
    | false => cases h; exact .completes (.readEmpty hc)
    | true => cases h; exact .holds (.read hc)

theorem execRead_next {wait : Bool} {n : Nat} (h : execRead wait n s = .next t) :
    Admitted (.read wait n) s ∧ Performed (.read wait n) (s.claim (some .rxConsumer)) t := by
  cases wait with
  | true =>
    obtain ⟨htask, h⟩ := taskOnly_next (run := fun s => asRole .rxConsumer s (readStep true n)) h
    exact asRole_performed (run := readStep true n) rfl (fun _ => htask) readStep_next h
  | false => exact asRole_performed (run := readStep false n) rfl nofun readStep_next h

theorem execRxbyte_next {b : Byte} (h : execRxbyte b s = .next t) :
    Admitted (.rxbyte b) s ∧ Performed (.rxbyte b) (s.claim (some .rxProducer)) t := by
  refine asRole_performed rfl nofun (fun h => ?_) h
  split at h
  · next hroom => cases h; exact .completes (.rxbyte hroom)
  · next hfull => cases h; exact .completes (.rxbyteLost hfull)

theorem execTxready_next (h : execTxready s = .next t) :
    Admitted .txready s ∧ Performed .txready (s.claim (some .txConsumer)) t := by
  refine asRole_performed rfl nofun (fun h => ?_) h
  split at h
  · next hc => cases h; exact .completes (.txready hc)
  · next hc => cases h; exact .completes (.txreadyEmpty hc)

theorem execFeed_next {b : Byte} (h : execFeed b s = .next t) :
    Admitted (.feed b) s ∧ Performed (.feed b) (s.claim (some .decoderFeeder)) t := by
  refine asRole_performed rfl nofun (fun h => ?_) h
  split at h
  · cases h
  · next hidx => cases h; exact .completes (.feed (Bool.eq_false_iff.2 hidx))

theorem execWasupd_next (h : execWasupd s = .next t) :
    Admitted .wasupd s ∧ Performed .wasupd (s.claim (some .updateConsumer)) t := by
  refine asRole_performed rfl nofun (fun h => ?_) h
  cases h
  exact .completes .wasupd

end Branches

/-- Everything a request that answers a next state can have done. -/
theorem exec_next {i : Instr} {s t : State} (h : exec i s = .next t) :
    Admitted i s ∧ Performed i (s.claim (roleOf i)) t := by
  cases i with
  | push ch b => exact execPush_next h
  | popb => exact execPopb_next h
  | popnb ch n => exact execPopnb_next h
  | write n => exact execWrite_next h
  | read wait n => exact execRead_next h
  | rxbyte b => exact execRxbyte_next h
  | txready => exact execTxready_next h
  | feed b => exact execFeed_next h
  | wasupd => exact execWasupd_next h
  | free | avail | wspace | ravail | rxlost | nbytes | ngood | nbad | conn | mem | adc | engspd | gndspd
  | oilp | wtemp | volt | afr | ses | run | dtc => exact respond_performed rfl rfl h

/-! ### What a request leaves alone -/

/-- The decoder's arm changes the decoder, the snapshot, its flags and counters, and the history, only. -/
theorem feedArm_frame (b : Byte) (s : State) :
    feedArm b s = { s with
      dstate := (feedArm b s).dstate, idx := (feedArm b s).idx, sum := (feedArm b s).sum
      memS := (feedArm b s).memS, adcS := (feedArm b s).adcS
      memP := (feedArm b s).memP, adcP := (feedArm b s).adcP
      updated := (feedArm b s).updated, connected := (feedArm b s).connected
      nGood := (feedArm b s).nGood, nBad := (feedArm b s).nBad, history := (feedArm b s).history } := by
  unfold feedArm
  split
  case h_1 => unfold feedAwaitSync1; split <;> rfl
  case h_2 => unfold feedAwaitSync2; dsimp only; split <;> rfl
  case h_7 => unfold feedAwaitChecksumLo; dsimp only; split <;> rfl
  all_goals rfl

@[simp] theorem feedArm_cfg (b : Byte) (s : State) : (feedArm b s).cfg = s.cfg := by rw [feedArm_frame]
@[simp] theorem feedArm_rx (b : Byte) (s : State) : (feedArm b s).rx = s.rx := by rw [feedArm_frame]
@[simp] theorem feedArm_tx (b : Byte) (s : State) : (feedArm b s).tx = s.tx := by rw [feedArm_frame]
@[simp] theorem feedArm_rxLost (b : Byte) (s : State) : (feedArm b s).rxLost = s.rxLost := by
  rw [feedArm_frame]
@[simp] theorem feedArm_nBytes (b : Byte) (s : State) : (feedArm b s).nBytes = s.nBytes := by
  rw [feedArm_frame]
@[simp] theorem feedArm_conts (b : Byte) (s : State) : (feedArm b s).conts = s.conts := by rw [feedArm_frame]
@[simp] theorem feedArm_roles (b : Byte) (s : State) : (feedArm b s).roles = s.roles := by rw [feedArm_frame]
@[simp] theorem feedArm_port (b : Byte) (s : State) : (feedArm b s).port = s.port := by rw [feedArm_frame]

/-- Before its response a request changes no parameter, no continuation and no further role. -/
theorem Effect.frame {i : Instr} {s u : State} {r : Word} {d : List Byte} (h : Effect i s u r d) :
    u.cfg = s.cfg ∧ u.conts = s.conts ∧ u.roles = s.roles ∧ u.port.agent = s.port.agent ∧
      u.port.word = s.port.word := by
  cases h with
  | query | written | readEmpty | txreadyEmpty | wasupd | pushFull | rxbyteLost | lastChunk =>
    exact ⟨rfl, rfl, rfl, rfl, rfl⟩
  | push | popb | popnb | read | rxbyte | txready | feed => simp

/-- A request's step changes no parameter, no further role, and the continuation of its own agent only (R37). -/
theorem Performed.frame {i : Instr} {s t : State} (h : Performed i s t) :
    t.cfg = s.cfg ∧ t.roles = s.roles ∧ ∀ b, b ≠ s.port.agent → t.conts.get b = s.conts.get b := by
  cases h with
  | completes h =>
    obtain ⟨hcfg, hconts, hroles, hagent, -⟩ := h.frame
    refine ⟨hcfg, hroles, fun b hb => ?_⟩
    rw [State.answer_conts, hagent, hconts]
    exact PerAgent.get_set_other _ _ hb
  | holds | staysInFlight => exact ⟨rfl, rfl, fun b hb => PerAgent.get_set_other _ _ hb⟩

/-- Taking a request to the port changes no parameter, no continuation and no role. -/
theorem State.atPort_frame {s u : State} {a : Agent} (h : s.atPort a = some u) :
    u.cfg = s.cfg ∧ u.conts = s.conts ∧ u.roles = s.roles ∧ u.port.agent = a := by
  rcases State.atPort_cases h with ⟨q, qs, -, rfl⟩ | ⟨k, -, ⟨-, rfl⟩ | ⟨ch, -, -, rfl⟩⟩ <;> simp

/-! ### What a step leaves alone -/

/-- A step changes no parameter, and a step of agent `a` no continuation but `a`'s (R36, R37, R230). -/
theorem step_frame {s t : State} (h : step s = .next t) :
    t.cfg = s.cfg ∧
    ∀ a later, s.schedule = .agent a :: later → ∀ b, b ≠ a → t.conts.get b = s.conts.get b := by
  obtain ⟨-, ⟨-, rfl⟩ | ⟨later, hs, rfl⟩ | ⟨a, later, hs, hturn⟩⟩ := step_cases h
  · exact ⟨rfl, fun _ _ _ _ _ => rfl⟩
  · exact ⟨rfl, fun a later' ha => nomatch hs.symm.trans ha⟩
  suffices hframe : t.cfg = s.cfg ∧ ∀ b, b ≠ a → t.conts.get b = s.conts.get b by
    obtain ⟨hcfg, hconts⟩ := hframe
    refine ⟨hcfg, fun a' later' ha => ?_⟩
    cases hs.symm.trans ha
    exact hconts
  rcases hturn with ⟨-, rfl⟩ | ⟨u, hu, hperform⟩
  · exact ⟨rfl, fun _ _ => rfl⟩
  obtain ⟨hcfg, hconts, -, rfl⟩ := State.atPort_frame hu
  rw [← show u.cfg = s.cfg from hcfg, ← show u.conts = s.conts from hconts]
  rcases hperform with ⟨e, -, rfl⟩ | ⟨i, -, hi⟩
  · exact ⟨rfl, fun b hb => PerAgent.get_set_other _ _ hb⟩
  · obtain ⟨-, hp⟩ := exec_next hi
    obtain ⟨hcfg', -, hconts'⟩ := hp.frame
    exact ⟨hcfg', hconts'⟩

/-- Settles O16: the first half of `step_frame`. -/
theorem parametersNeverChange : Obligations.ParametersNeverChange :=
  fun _ _ h => (step_frame h).1

/-- Settles O9: the second half of `step_frame`. -/
theorem otherAgentsKeepTheirRequest : Obligations.OtherAgentsKeepTheirRequest :=
  fun _ _ a later hs h => (step_frame h).2 a later hs

/-! ### The wake flags -/

/-- What R24 and R35 allow a request `i` from `s` to `u` on `RX.wake`: nothing, or to set it by a byte put into
an RX with room. -/
def RxWakeRule (i : Instr) (s u : State) : Prop :=
  u.rx.wake = s.rx.wake ∨
    (u.rx.wake = true ∧ (∃ b, i = .push .rx b ∨ i = .rxbyte b) ∧ s.rx.count < s.cfg.cRx)

/-- What R35 and R131 allow a request `i` from `s` to `u` on `TX.wake`: nothing, or to set it by a removal that
takes the free space of TX across `TX_HYST`. -/
def TxWakeRule (i : Instr) (s u : State) : Prop :=
  u.tx.wake = s.tx.wake ∨
    (u.tx.wake = true ∧ (i = .txready ∨ ∃ n, i = .popnb .tx n) ∧
      s.cfg.cTx - s.tx.count < s.cfg.txHyst ∧ s.cfg.txHyst ≤ s.cfg.cTx - u.tx.count)

@[simp] theorem State.take_rx_wake (s : State) (ch : Chan) (n : Nat) :
    (s.take ch n).2.rx.wake = s.rx.wake := by cases ch <;> simp [State.take]

@[simp] theorem State.take_tx_wake (s : State) (ch : Chan) (n : Nat) :
    (s.take ch n).2.tx.wake = s.tx.wake := by cases ch <;> simp [State.take]

@[simp] theorem State.take_tx_tx_count (s : State) (n : Nat) :
    (s.take .tx n).2.tx.count = s.tx.count - n := Channel.getN_count _ _ n _

@[simp] theorem State.putByte_tx_wake (s : State) (ch : Chan) (b : Byte) :
    (s.putByte ch b).tx.wake = s.tx.wake := by cases ch <;> rfl

@[simp] theorem Channel.putAll_wake (cap : Nat) (c : Channel) (bs : List Byte) :
    (Channel.putAll cap c bs).wake = c.wake := by
  induction bs generalizing c with
  | nil => rfl
  | cons b bs ih => rw [Channel.putAll, ih, Channel.put_wake]

@[simp] theorem State.writeChunk_tx_wake (s : State) (n : Nat) :
    (s.writeChunk n).tx.wake = s.tx.wake := Channel.putAll_wake _ _ _

/-- `TxHyst` sets `TX.wake` only when the free space crosses `TX_HYST`, and never clears it (R131). -/
theorem State.txHyst_wake_cases (s : State) (f0 f1 : Nat) :
    (s.txHyst f0 f1).tx.wake = s.tx.wake ∨
      ((s.txHyst f0 f1).tx.wake = true ∧ f0 < s.cfg.txHyst ∧ s.cfg.txHyst ≤ f1) := by
  unfold State.txHyst
  split
  · next hcross => exact .inr ⟨rfl, hcross⟩
  · exact .inl rfl

@[simp] theorem State.txHyst_tx_count (s : State) (f0 f1 : Nat) :
    (s.txHyst f0 f1).tx.count = s.tx.count := by
  rw [State.txHyst_tx, Channel.withWake_count]

/-- The removal of `k` of the bytes of TX, with its hysteresis rule (R105, R128, R131). -/
theorem txWakeRule_removal {i : Instr} {s : State} {k : Nat} (hi : i = .txready ∨ ∃ n, i = .popnb .tx n)
    (hcount : s.tx.count ≤ s.cfg.cTx) (hk : k ≤ s.tx.count) :
    TxWakeRule i s ((s.take .tx k).2.txHyst (s.freeOf .tx) (s.freeOf .tx + k)) := by
  rcases State.txHyst_wake_cases (s.take .tx k).2 (s.freeOf .tx) (s.freeOf .tx + k) with
    hsame | ⟨hset, hbelow, hreached⟩
  · exact .inl (by rw [hsame, State.take_tx_wake])
  · rw [State.take_cfg] at hbelow hreached
    have hfree : s.freeOf .tx = s.cfg.cTx - s.tx.count := rfl
    refine .inr ⟨hset, hi, hfree ▸ hbelow, ?_⟩
    rw [State.txHyst_tx_count, State.take_tx_tx_count]
    omega

/-- `RX.wake` before the response: it is set by the two requests that put a byte into RX (R102, R126). -/
theorem Effect.rxWakeRule {i : Instr} {s u : State} {r : Word} {d : List Byte} (h : Effect i s u r d) :
    RxWakeRule i s u := by
  cases h with
  | @push ch b _ hroom =>
    cases ch with
    | rx => exact .inr ⟨rfl, ⟨b, .inl rfl⟩, hroom⟩
    | tx => exact .inl rfl
  | @rxbyte b _ hroom => exact .inr ⟨rfl, ⟨b, .inr rfl⟩, hroom⟩
  | query | pushFull | written | lastChunk | readEmpty | rxbyteLost | txreadyEmpty | wasupd => exact .inl rfl
  | popb | popnb | read | txready | feed => exact .inl (by simp)

/-- `TX.wake` before the response: it is set by the two requests that remove bytes from TX (R105, R128). -/
theorem Effect.txWakeRule {i : Instr} {s u : State} {r : Word} {d : List Byte} (h : Effect i s u r d)
    (hcount : s.tx.count ≤ s.cfg.cTx) : TxWakeRule i s u := by
  cases h with
  | @popnb ch n k _ hk =>
    cases ch with
    | rx => exact .inl (by simp)
    | tx => exact txWakeRule_removal (.inr ⟨n, rfl⟩) hcount (hk ▸ Nat.min_le_left _ _)
  | txready hc => exact txWakeRule_removal (.inl rfl) hcount hc
  | query | pushFull | written | readEmpty | rxbyteLost | txreadyEmpty | wasupd => exact .inl rfl
  | push | popb | lastChunk | read | rxbyte | feed => exact .inl (by simp)

/-- Neither a response nor a hold touches a wake flag, so a request's step obeys the rules of both flags. -/
theorem Performed.wakeRules {i : Instr} {s t : State} (h : Performed i s t)
    (hcount : s.tx.count ≤ s.cfg.cTx) : RxWakeRule i s t ∧ TxWakeRule i s t := by
  cases h with
  | completes h => exact ⟨h.rxWakeRule, h.txWakeRule hcount⟩
  | holds => exact ⟨.inl rfl, .inl rfl⟩
  | staysInFlight => exact ⟨.inl rfl, .inl (State.writeChunk_tx_wake _ _)⟩

/-- Settles O22: a flag that differs was set by its rule. -/
theorem wakeFlagsAreSetOnlyByTheirRules : Obligations.WakeFlagsAreSetOnlyByTheirRules := by
  intro i s t htx h
  obtain ⟨hcount, -⟩ := htx
  obtain ⟨-, hp⟩ := exec_next h
  obtain ⟨hrx, htx⟩ := hp.wakeRules hcount
  exact ⟨hrx.resolve_left, htx.resolve_left⟩

/-! ### The invariant of the block

`State.Inv` in two parts: what it says of the block, which only the effects of requests and the resumption of a
held one can touch, and what it says of each agent's continuation. -/

/-- The part of the invariant that speaks of the block: all of it but the continuations. -/
abbrev State.BlockOk (s : State) : Prop :=
  s.cfg.Legal ∧ s.rx.Ok s.cfg.cRx ∧ s.tx.Ok s.cfg.cTx ∧ s.CountersOk ∧ s.DecoderOk ∧ s.SnapshotOk

theorem State.agentsOk_iff (s : State) : s.AgentsOk ↔ ∀ a, s.contOk a = true := by
  constructor
  · rintro ⟨hrxi, htxi, hrxt, htxt, hui⟩ (_ | _ | _ | _ | _) <;> assumption
  · exact fun h => ⟨h _, h _, h _, h _, h _⟩

theorem State.inv_iff (s : State) : s.Inv ↔ s.BlockOk ∧ ∀ a, s.contOk a = true := by
  rw [← State.agentsOk_iff]
  exact ⟨fun ⟨hl, hrx, htx, hcnt, hdec, hsnap, hag⟩ => ⟨⟨hl, hrx, htx, hcnt, hdec, hsnap⟩, hag⟩,
    fun ⟨⟨hl, hrx, htx, hcnt, hdec, hsnap⟩, hag⟩ => ⟨hl, hrx, htx, hcnt, hdec, hsnap, hag⟩⟩

section BlockOk

variable {s : State}

theorem State.BlockOk.chan (h : s.BlockOk) (ch : Chan) : (s.chan ch).Ok (Config.cap s.cfg ch) := by
  obtain ⟨-, hrx, htx, -⟩ := h
  cases ch with
  | rx => exact hrx
  | tx => exact htx

theorem State.BlockOk.setChan (h : s.BlockOk) {ch : Chan} {c : Channel} (hc : c.Ok (Config.cap s.cfg ch)) :
    (s.setChan ch c).BlockOk := by
  obtain ⟨hl, hrx, htx, hrest⟩ := h
  cases ch with
  | rx => exact ⟨hl, hc, htx, hrest⟩
  | tx => exact ⟨hl, hrx, hc, hrest⟩

theorem State.BlockOk.putByte (h : s.BlockOk) {ch : Chan} (b : Byte)
    (hroom : (s.chan ch).count < Config.cap s.cfg ch) : (s.putByte ch b).BlockOk :=
  h.setChan (Channel.put_ok b (h.chan ch) hroom)

theorem State.BlockOk.signalWrite (h : s.BlockOk) (ch : Chan) : (s.signalWrite ch).BlockOk := by
  cases ch with
  | rx => exact h.setChan (ch := .rx) (Channel.withWake_ok true (h.chan .rx))
  | tx => exact h

theorem State.BlockOk.clearWake (h : s.BlockOk) (ch : Chan) : (s.clearWake ch).BlockOk :=
  h.setChan (Channel.withWake_ok false (h.chan ch))

theorem State.BlockOk.take (h : s.BlockOk) {ch : Chan} {n : Nat} (hn : n ≤ (s.chan ch).count) :
    (s.take ch n).2.BlockOk := by
  obtain ⟨-, -, hok, -⟩ := State.take_spec s ch n (h.chan ch) hn
  rw [State.take_eq]
  exact h.setChan hok

theorem State.BlockOk.txHyst (h : s.BlockOk) (f0 f1 : Nat) : (s.txHyst f0 f1).BlockOk := by
  unfold State.txHyst
  split
  · exact h.setChan (ch := .tx) (Channel.withWake_ok true (h.chan .tx))
  · exact h

theorem State.BlockOk.signalRemoval (h : s.BlockOk) (ch : Chan) (f0 f1 : Nat) :
    (s.signalRemoval ch f0 f1).BlockOk := by
  cases ch with
  | rx => exact h
  | tx => exact h.txHyst f0 f1

theorem State.BlockOk.writeChunk (h : s.BlockOk) {n : Nat} (hdata : s.port.done + s.port.rest.length = n) :
    (s.writeChunk n).BlockOk := by
  obtain ⟨htx, -⟩ := State.writeChunk_spec s n (h.chan .tx) hdata
  exact h.setChan (ch := .tx) htx

end BlockOk

/-! ### The decoder, the snapshot and the counters -/

section Decoder

variable {s : State}

theorem Memory.writtenBelow_zero {w : Nat} (m : Memory w) : Memory.WrittenBelow m 0 := nofun

/-- Between two frames the decoder has nothing to have stored: only the form of its arrays counts. -/
theorem State.decoderOk_of_betweenFrames {u : State} (h : s.DecoderOk)
    (hd : u.dstate = .awaitSync1 ∨ u.dstate = .awaitSync2) (hmem : u.memS = s.memS) (hadc : u.adcS = s.adcS) :
    u.DecoderOk := by
  obtain ⟨-, -, -, hwfS, hwfA, -, -⟩ := h
  rw [← hmem] at hwfS
  rw [← hadc] at hwfA
  have hbody : u.bodyStored = 0 := by rcases hd with hd | hd <;> rw [State.bodyStored, hd]
  have hanalog : u.analogStarted = 0 := by rcases hd with hd | hd <;> rw [State.analogStarted, hd]
  refine ⟨?_, ?_, ?_, hwfS, hwfA, hbody ▸ Memory.writtenBelow_zero _, hanalog ▸ Memory.writtenBelow_zero _⟩ <;>
    rcases hd with hd | hd <;> simp [hd]

/-- `idx` counts one up without wrapping, to the length `n` of the field being read or to a place below it (R28). -/
theorem idx_succ_cases {idx : BitVec 9} {n : Nat} (h : idx.toNat < n) (hn : n ≤ bodyLen) :
    (idx + 1 = BitVec.ofNat 9 n ∧ idx.toNat + 1 = n) ∨
    (idx + 1 ≠ BitVec.ofNat 9 n ∧ (idx + 1).toNat = idx.toNat + 1 ∧ (idx + 1).toNat < n) := by
  have hwidth : bodyLen < 2 ^ 9 := by decide
  have hsucc : (idx + 1).toNat = idx.toNat + 1 := by
    exact (BitVec.toNat_add idx 1).trans (Nat.mod_eq_of_lt (by simp only [BitVec.reduceToNat]; omega))
  have heq : idx + 1 = BitVec.ofNat 9 n ↔ idx.toNat + 1 = n := by
    rw [← BitVec.toNat_inj, hsucc, BitVec.toNat_ofNat, Nat.mod_eq_of_lt (by omega)]
  by_cases hlast : idx.toNat + 1 = n
  · exact .inl ⟨heq.2 hlast, hlast⟩
  · exact .inr ⟨mt heq.1 hlast, hsucc, by omega⟩

/-- `idx[3:1]` is half of `idx` while that is below `2 * ADC_N` (R157). -/
theorem analogIndex_toNat {idx : BitVec 9} (h : idx.toNat < 2 * adcN) :
    (idx.extractLsb' 1 3).toNat = idx.toNat / 2 := by
  unfold adcN at h
  rw [BitVec.extractLsb'_toNat, Nat.shiftRight_eq_div_pow, Nat.mod_eq_of_lt (by omega), Nat.pow_one]

theorem feedAwaitSync1_decoderOk (b : Byte) (h : s.DecoderOk) : (feedAwaitSync1 b s).DecoderOk := by
  unfold feedAwaitSync1
  split
  · exact State.decoderOk_of_betweenFrames h (.inr rfl) rfl rfl
  · exact h

theorem feedAwaitSync2_decoderOk (b : Byte) (h : s.DecoderOk) : (feedAwaitSync2 b s).DecoderOk := by
  unfold feedAwaitSync2
  dsimp only
  split
  · obtain ⟨-, -, -, hwfS, hwfA, -, -⟩ := h
    have hstart : (0 : BitVec 9).toNat < bodyLen := by decide
    exact ⟨nofun, fun _ => hstart, nofun, hwfS, hwfA, Memory.writtenBelow_zero _, Memory.writtenBelow_zero _⟩
  · exact State.decoderOk_of_betweenFrames h (.inl rfl) rfl rfl

/-- A body byte goes to the first cell not yet stored (R155). -/
theorem feedReadingBody_decoderOk (b : Byte) (h : s.DecoderOk) (hd : s.dstate = .readingBody) :
    (feedReadingBody b s).DecoderOk := by
  obtain ⟨-, hidx, -, hwfS, hwfA, hbody, -⟩ := h
  replace hidx := hidx hd
  rw [State.bodyStored, hd] at hbody
  have hwf := Memory.write_wf b hwfS hidx
  have hstored := Memory.writtenBelow_succ b hbody
  unfold feedReadingBody
  rcases idx_succ_cases (n := 256) hidx le_rfl with ⟨hlast, hlen⟩ | ⟨hmore, hsucc, hlt⟩
  · rw [hlen] at hstored
    simp only [if_pos hlast]
    exact ⟨nofun, nofun, nofun, hwf, hwfA, hstored, Memory.writtenBelow_zero _⟩
  · rw [← hsucc] at hstored
    simp only [if_neg hmore]
    exact ⟨nofun, fun _ => hlt, nofun, hwf, hwfA, hstored, Memory.writtenBelow_zero _⟩

theorem feedReadingStatus_decoderOk (b : Byte) (h : s.DecoderOk) (hd : s.dstate = .readingStatus) :
    (feedReadingStatus b s).DecoderOk := by
  obtain ⟨-, -, -, hwfS, hwfA, hbody, -⟩ := h
  rw [State.bodyStored, hd] at hbody
  have hstart : (0 : BitVec 9).toNat < 2 * adcN := by decide
  have hnone : (feedReadingStatus b s).analogStarted = 0 := by
    simp [State.analogStarted, feedReadingStatus]
  exact ⟨nofun, nofun, fun _ => hstart, hwfS, hwfA, hbody, hnone ▸ Memory.writtenBelow_zero _⟩

/-- A low analog byte starts the first word not yet started, a high one completes the last that was (R157). -/
theorem feedReadingAnalog_decoderOk (b : Byte) (h : s.DecoderOk) (hd : s.dstate = .readingAnalog) :
    (feedReadingAnalog b s).DecoderOk := by
  obtain ⟨-, -, hidx, hwfS, hwfA, hbody, hanalog⟩ := h
  replace hidx := hidx hd
  rw [State.bodyStored, hd] at hbody
  rw [State.analogStarted, hd] at hanalog
  have hj := analogIndex_toNat hidx
  have hwf := Memory.write_wf (analogWord b s (s.idx.extractLsb' 1 3).toNat) hwfA
    (a := (s.idx.extractLsb' 1 3).toNat) (by rw [hj]; omega)
  have hstarted : Memory.WrittenBelow
      (Memory.write s.adcS (s.idx.extractLsb' 1 3).toNat (analogWord b s (s.idx.extractLsb' 1 3).toNat))
      ((s.idx.toNat + 1 + 1) / 2) := by
    rcases Nat.mod_two_eq_zero_or_one s.idx.toNat with heven | hodd
    · rw [show (s.idx.toNat + 1) / 2 = (s.idx.extractLsb' 1 3).toNat by omega] at hanalog
      rw [show (s.idx.toNat + 1 + 1) / 2 = (s.idx.extractLsb' 1 3).toNat + 1 by omega]
      exact Memory.writtenBelow_succ _ hanalog
    · rw [show (s.idx.toNat + 1 + 1) / 2 = (s.idx.toNat + 1) / 2 by omega]
      exact Memory.writtenBelow_write _ _ hanalog
  unfold feedReadingAnalog
  rcases idx_succ_cases (n := 16) hidx (by decide) with ⟨hlast, hlen⟩ | ⟨hmore, hsucc, hlt⟩
  · rw [hlen] at hstarted
    simp only [if_pos hlast]
    exact ⟨nofun, nofun, nofun, hwfS, hwf, hbody, hstarted⟩
  · rw [← hsucc] at hstarted
    simp only [if_neg hmore]
    exact ⟨nofun, nofun, fun _ => hlt, hwfS, hwf, hbody, hstarted⟩

theorem feedAwaitChecksumHi_decoderOk (b : Byte) (h : s.DecoderOk) (hd : s.dstate = .awaitChecksumHi) :
    (feedAwaitChecksumHi b s).DecoderOk := by
  obtain ⟨-, -, -, hwfS, hwfA, hbody, hanalog⟩ := h
  rw [State.bodyStored, hd] at hbody
  rw [State.analogStarted, hd] at hanalog
  exact ⟨nofun, nofun, nofun, hwfS, hwfA, hbody, hanalog⟩

/-- The last byte of a frame either publishes it or counts it bad (R158, R159, R180): adding and subtracting the
byte leaves the sum as it was. -/
theorem feedAwaitChecksumLo_cases (b : Byte) (s : State) :
    (s.sum = b.setWidth 16 ∧ feedAwaitChecksumLo b s = { publish s with dstate := .awaitSync1 }) ∨
    (s.sum ≠ b.setWidth 16 ∧ feedAwaitChecksumLo b s =
      { { s with nBad := bump s.cfg s.nBad }.meets (.checksumFailure s.sum b) with
        dstate := .awaitSync1 }) := by
  unfold feedAwaitChecksumLo
  simp only [BitVec.add_sub_cancel]
  split
  · next hsum => exact .inl ⟨hsum, rfl⟩
  · next hsum => exact .inr ⟨hsum, rfl⟩

theorem feedAwaitChecksumLo_decoderOk (b : Byte) (h : s.DecoderOk) : (feedAwaitChecksumLo b s).DecoderOk := by
  rcases feedAwaitChecksumLo_cases b s with ⟨-, heq⟩ | ⟨-, heq⟩ <;> rw [heq] <;>
    exact State.decoderOk_of_betweenFrames h (.inl rfl) rfl rfl

theorem feedArm_decoderOk (b : Byte) (h : s.DecoderOk) : (feedArm b s).DecoderOk := by
  unfold feedArm
  split
  · exact feedAwaitSync1_decoderOk b h
  · exact feedAwaitSync2_decoderOk b h
  · next hd => exact feedReadingBody_decoderOk b h hd
  · next hd => exact feedReadingStatus_decoderOk b h hd
  · next hd => exact feedReadingAnalog_decoderOk b h hd
  · next hd => exact feedAwaitChecksumHi_decoderOk b h hd
  · exact feedAwaitChecksumLo_decoderOk b h
  · exact State.decoderOk_of_betweenFrames h (.inl rfl) rfl rfl

/-- Before the last byte of a frame no arm touches the snapshot, its flags or the frame counters (R188). -/
theorem feedArm_keeps_snapshot (b : Byte) (hd : s.dstate ≠ .awaitChecksumLo) :
    (feedArm b s).memP = s.memP ∧ (feedArm b s).adcP = s.adcP ∧ (feedArm b s).updated = s.updated ∧
      (feedArm b s).connected = s.connected ∧ (feedArm b s).nGood = s.nGood ∧
      (feedArm b s).nBad = s.nBad := by
  unfold feedArm
  split
  case h_1 => unfold feedAwaitSync1; split <;> exact ⟨rfl, rfl, rfl, rfl, rfl, rfl⟩
  case h_2 => unfold feedAwaitSync2; dsimp only; split <;> exact ⟨rfl, rfl, rfl, rfl, rfl, rfl⟩
  case h_7 hlo => exact absurd hlo hd
  all_goals exact ⟨rfl, rfl, rfl, rfl, rfl, rfl⟩

/-- What is published at the last byte of a frame is written whole (R180). -/
theorem feedArm_snapshotOk (b : Byte) (hdec : s.DecoderOk) (hsnap : s.SnapshotOk) :
    (feedArm b s).SnapshotOk := by
  by_cases hd : s.dstate = .awaitChecksumLo
  · rw [show feedArm b s = feedAwaitChecksumLo b s by rw [feedArm, hd]]
    rcases feedAwaitChecksumLo_cases b s with ⟨-, heq⟩ | ⟨-, heq⟩ <;> rw [heq]
    · obtain ⟨-, -, -, hwfS, hwfA, hbody, hanalog⟩ := hdec
      rw [State.bodyStored, hd] at hbody
      rw [State.analogStarted, hd] at hanalog
      exact ⟨hwfS, hwfA, fun _ => ⟨hbody, hanalog⟩, fun _ => rfl⟩
    · exact hsnap
  · obtain ⟨hmemP, hadcP, hupdated, hconnected, -, -⟩ := feedArm_keeps_snapshot b hd
    rwa [State.SnapshotOk, hmemP, hadcP, hupdated, hconnected]

theorem feedArm_countersOk (b : Byte) (h : s.CountersOk) : (feedArm b s).CountersOk := by
  obtain ⟨hlost, hbytes, hgood, hbad⟩ := h
  rw [State.CountersOk, feedArm_rxLost, feedArm_nBytes, feedArm_cfg]
  refine ⟨hlost, hbytes, ?_⟩
  by_cases hd : s.dstate = .awaitChecksumLo
  · rw [show feedArm b s = feedAwaitChecksumLo b s by rw [feedArm, hd]]
    rcases feedAwaitChecksumLo_cases b s with ⟨-, heq⟩ | ⟨-, heq⟩ <;> rw [heq]
    · exact ⟨bump_lt _ _, hbad⟩
    · exact ⟨hgood, bump_lt _ _⟩
  · obtain ⟨-, -, -, -, hnGood, hnBad⟩ := feedArm_keeps_snapshot b hd
    rw [hnGood, hnBad]
    exact ⟨hgood, hbad⟩

theorem State.BlockOk.feedArm (b : Byte) (h : s.BlockOk) : (feedArm b s).BlockOk := by
  obtain ⟨hl, hrx, htx, hcnt, hdec, hsnap⟩ := h
  rw [State.BlockOk, feedArm_cfg, feedArm_rx, feedArm_tx]
  exact ⟨hl, hrx, htx, feedArm_countersOk b hcnt, feedArm_decoderOk b hdec, feedArm_snapshotOk b hdec hsnap⟩

end Decoder

/-! ### Every step keeps the invariant -/

section Invariant

variable {i : Instr} {s t u : State} {a : Agent}

/-- Nothing a request does before its response breaks the invariant of the block. -/
theorem Effect.blockOk {r : Word} {d : List Byte} (h : Effect i s u r d) (hs : s.BlockOk) : u.BlockOk := by
  cases h with
  | query | pushFull | written | readEmpty | txreadyEmpty => exact hs
  | push hroom => exact (hs.putByte _ hroom).signalWrite _
  | popb hc => exact hs.take hc
  | popnb hk => exact (hs.take (hk ▸ Nat.min_le_left _ _)).signalRemoval _ _ _
  | lastChunk hdata => exact hs.writeChunk hdata
  | read _ hk => exact hs.take (hk ▸ Nat.min_le_left _ _)
  | rxbyte hroom => exact (hs.putByte (ch := .rx) _ hroom).signalWrite _
  | rxbyteLost =>
    obtain ⟨hl, hrx, htx, ⟨-, hcnt⟩, hrest⟩ := hs
    exact ⟨hl, hrx, htx, ⟨bump_lt _ _, hcnt⟩, hrest⟩
  | txready hc => exact (hs.take hc).txHyst _ _
  | feed =>
    obtain ⟨hl, hrx, htx, ⟨hlost, -, hcnt⟩, hrest⟩ := hs
    exact State.BlockOk.feedArm _ ⟨hl, hrx, htx, ⟨hlost, bump_lt _ _, hcnt⟩, hrest⟩
  | wasupd =>
    obtain ⟨hl, hrx, htx, hcnt, hdec, hwfP, hwfA, hwhole, -⟩ := hs
    exact ⟨hl, hrx, htx, hcnt, hdec, hwfP, hwfA, hwhole, nofun⟩

theorem Performed.blockOk (h : Performed i s t) (hs : s.BlockOk) : t.BlockOk := by
  cases h with
  | completes h => exact h.blockOk hs
  | holds => exact hs
  | staysInFlight hdata => exact hs.writeChunk hdata

theorem State.BlockOk.atPort (hs : s.BlockOk) (h : s.atPort a = some u) : u.BlockOk := by
  rcases State.atPort_cases h with ⟨q, qs, -, rfl⟩ | ⟨k, -, ⟨-, rfl⟩ | ⟨ch, -, -, rfl⟩⟩
  · exact hs
  · exact hs
  · exact hs.clearWake ch

/-- An agent with no request in flight is in order. -/
theorem State.contOk_of_none (h : s.conts.get a = none) : s.contOk a = true := by
  simp [State.contOk, h]

/-- An agent's continuation stays in order while it and the two roles it may stand in are kept. -/
theorem State.contOk_of_kept (hconts : t.conts.get a = s.conts.get a)
    (hroles : ∀ r, s.roles.get r = some a → t.roles.get r = some a) (h : s.contOk a = true) :
    t.contOk a = true := by
  have hrx : s.roles.rxConsumer = some a → t.roles.rxConsumer = some a := hroles .rxConsumer
  have htx : s.roles.txProducer = some a → t.roles.txProducer = some a := hroles .txProducer
  unfold State.contOk at h ⊢
  rw [hconts]
  split
  · rfl
  · next k hk =>
    simp only [hk] at h
    split <;> simp_all

/-- A role another agent holds stays with it when a request passes the role check (R227). -/
theorem Admitted.roles_kept (h : Admitted i s) {b : Agent} (hb : b ≠ s.port.agent) {r : Role}
    (hr : s.roles.get r = some b) : (s.claim (roleOf i)).roles.get r = some b := by
  cases hi : roleOf i with
  | none => exact hr
  | some q =>
    refine (Roles.get_give_other s.roles s.port.agent ?_).trans hr
    rintro rfl
    rcases h.role r hi with hfree | hmine
    · cases hfree.symm.trans hr
    · exact hb (Option.some.inj (hr.symm.trans hmine))

/-- The continuation a request leaves its own agent with is that of a request that can hold, in a role the agent
holds, and a `WRITE` left in flight has bytes still to copy (R37, R121, R226, R227). -/
theorem Performed.contOk_own (h : Performed i s t) (hs : s.BlockOk) (hd : decode s.port.word = .ok i)
    (htask : i.canHold = true → s.port.agent.isInterrupt = false)
    (hrole : ∀ r, roleOf i = some r → s.roles.get r = some s.port.agent) :
    t.contOk s.port.agent = true := by
  cases h with
  | completes h =>
    obtain ⟨-, -, -, hagent, -⟩ := h.frame
    exact State.contOk_of_none (by rw [State.answer_conts, hagent, PerAgent.get_set_same])
  | holds h =>
    cases h with
    | popb | read =>
      have hrx : s.roles.rxConsumer = some s.port.agent := hrole _ rfl
      simp [State.contOk, hd, htask rfl, hrx]
    | write hdata hmore =>
      have htx : s.roles.txProducer = some s.port.agent := hrole _ rfl
      have hrest : s.port.rest ≠ [] := fun h => hmore (by simpa [h] using hdata)
      simp [State.contOk, hd, htask rfl, htx, hdata, hrest]
  | @staysInFlight n _ hdata _ hmore =>
    have htx : s.roles.txProducer = some s.port.agent := hrole _ rfl
    obtain ⟨-, -, -, -, -, -, hleft⟩ := State.writeChunk_spec s n (hs.chan .tx) hdata
    have hrest : (s.writeChunk n).port.rest ≠ [] := fun h => hmore (by simpa [h] using hleft)
    have hagent : (s.writeChunk n).port.agent = s.port.agent := rfl
    have hword : (s.writeChunk n).port.word = s.port.word := rfl
    simp [State.contOk, hagent, hword, hd, htask rfl, htx, hleft, hrest]

/-- A request performed from a state of the invariant leaves one. -/
theorem exec_inv (h : exec i s = .next t) (hd : decode s.port.word = .ok i) (hs : s.Inv) : t.Inv := by
  obtain ⟨hblock, hagents⟩ := s.inv_iff.1 hs
  obtain ⟨hadm, hp⟩ := exec_next h
  have hclaim : (s.claim (roleOf i)).BlockOk := hblock
  obtain ⟨-, hroles, hconts⟩ := hp.frame
  refine t.inv_iff.2 ⟨hp.blockOk hclaim, fun b => ?_⟩
  by_cases hb : b = s.port.agent
  · subst hb
    refine hp.contOk_own hclaim hd hadm.context fun r hr => ?_
    rw [hr]
    exact Roles.get_give_same _ _ _
  · refine State.contOk_of_kept (s := s) (hconts b hb) (fun r hr => ?_) (hagents b)
    rw [hroles]
    exact hadm.roles_kept hb hr

/-- An illegal word changes nothing the invariant speaks of (R76). -/
theorem raiseIllegal_inv (hs : s.Inv) :
    ((s.meets (.illegalCommand s.port.word)).answer .illegal 0 []).Inv := by
  obtain ⟨hblock, hagents⟩ := s.inv_iff.1 hs
  refine (State.inv_iff _).2 ⟨hblock, fun b => ?_⟩
  by_cases hb : b = s.port.agent
  · subst hb
    exact State.contOk_of_none (PerAgent.get_set_same _ _ _)
  · exact State.contOk_of_kept (PerAgent.get_set_other _ _ hb) (fun _ => id) (hagents b)

/-- Taking a request to the port keeps the invariant: it clears a wake flag at most. -/
theorem State.Inv.atPort (hs : s.Inv) (h : s.atPort a = some u) : u.Inv := by
  obtain ⟨hblock, hagents⟩ := s.inv_iff.1 hs
  obtain ⟨-, hconts, hroles, -⟩ := State.atPort_frame h
  refine u.inv_iff.2 ⟨hblock.atPort h, fun b => ?_⟩
  exact State.contOk_of_kept (by rw [hconts]) (fun r => by rw [hroles]; exact id) (hagents b)

theorem Channel.empty_ok {cap : Nat} (h : 0 < cap) : Channel.empty.Ok cap :=
  ⟨Nat.zero_le _, h, (Nat.zero_mod _).symm, ⟨.nil, nofun⟩, nofun⟩

/-- The invariant right after reset (R39). -/
theorem resetWith_inv {cfg : Config} (hl : cfg.Legal) : (State.resetWith cfg).Inv := by
  obtain ⟨-, -, hmemS, hadcS, hmemP, hadcP⟩ := resetWith_memories_wf cfg
  obtain ⟨hcRx, -, hhyst, hcTx, -⟩ := id hl
  have hpos : 0 < 2 ^ cfg.cntW := by positivity
  refine (State.inv_iff _).2 ⟨⟨hl, Channel.empty_ok hcRx, Channel.empty_ok (hhyst.trans hcTx),
    ⟨hpos, hpos, hpos, hpos⟩, ?_, hmemP, hadcP, nofun, nofun⟩, fun a => ?_⟩
  · exact ⟨nofun, nofun, nofun, hmemS, hadcS, Memory.writtenBelow_zero _, Memory.writtenBelow_zero _⟩
  · exact State.contOk_of_none (PerAgent.get_all a none)

end Invariant

/-- Settles O13: by the cases of a step, each of which keeps the invariant. -/
theorem everyStepKeepsTheInvariant : Obligations.EveryStepKeepsTheInvariant := by
  intro s t hs h
  obtain ⟨hl, ⟨-, rfl⟩ | ⟨later, -, rfl⟩ | ⟨a, later, -, hturn⟩⟩ := step_cases h
  · exact hs
  · exact resetWith_inv hl
  have hrun : ({ s with schedule := later } : State).Inv := hs
  rcases hturn with ⟨-, rfl⟩ | ⟨u, hu, hperform⟩
  · exact hrun
  rcases hperform with ⟨e, -, rfl⟩ | ⟨i, hd, hi⟩
  · exact raiseIllegal_inv (hrun.atPort hu)
  · exact exec_inv hi hd (hrun.atPort hu)

/-! ### Reset -/

/-- Settles O10: by `step_reset`, the state of R39. -/
theorem resetStepGivesTheResetValues : Obligations.ResetStepGivesTheResetValues := by
  intro s later hl hs
  refine ⟨_, step_reset hl hs, fun a => PerAgent.get_all a none, fun r => ?_, ?_⟩
  · cases r <;> rfl
  · exact ⟨rfl, rfl, rfl, rfl, rfl, rfl, rfl, rfl, rfl, rfl, rfl, rfl, rfl, rfl, rfl⟩

/-- Settles O11: by `step_reset`, what `resetBlock` keeps. -/
theorem resetKeepsWhatIsOutsideTheBlock : Obligations.ResetKeepsWhatIsOutsideTheBlock :=
  fun _ _ hl hs => ⟨_, step_reset hl hs, rfl, rfl, rfl, rfl, rfl⟩

/-- Settles O12: every array is empty, every count 0 and no request in flight. -/
theorem resetSatisfiesTheInvariant : Obligations.ResetSatisfiesTheInvariant :=
  fun _ => resetWith_inv

end Sys2Proof.Machine

/-! The statements of 20_memory about requests that change nothing: the queries and the view (R52, R59, R200). -/

namespace Sys2Proof.Machine

/-! ### The queries -/

/-- A request that only answers leaves the state as `State.completed` says (R59). -/
theorem respond_completed (s : State) (r : Word) (d : List Byte) :
    respond s r d = .next (s.completed none [] r d) := by
  rw [respond_eq, State.answer_eq_completed]

/-- Settles O53: every request without a role is an arm of `exec` that only answers. -/
theorem queriesChangeNothing : Obligations.QueriesChangeNothing := by
  intro i s hi
  cases i with
  | push | popb | popnb | write | read | rxbyte | txready | feed | wasupd => cases hi
  | free | avail | wspace | ravail | rxlost | nbytes | ngood | nbad | conn | mem | adc | engspd | gndspd
  | oilp | wtemp | volt | afr | ses | run | dtc => exact ⟨_, respond_completed s _ []⟩

/-! ### The view -/

/-- The view requests (R200). -/
def IsViewRequest (i : Instr) : Prop :=
  i ∈ [Instr.engspd, .gndspd, .oilp, .wtemp, .volt, .afr, .ses, .run] ∨ ∃ k, i = .dtc k

/-- The result of a view request from the bytes `mem` and the analog words `adc` of the snapshot; a request that is
not of the view has none. -/
def viewResult (mem : Nat → Byte) (adc : Nat → Half) : Instr → Word
  | .engspd => resultOf (engineSpeed (mem 0xF3).toNat)
  | .gndspd => resultOf (mem 0x34).toNat
  | .oilp => resultOf (oilPressure (adc 2).toNat)
  | .wtemp => resultOf (waterTemperature (mem 0xE3).toNat)
  | .volt => resultOf (mem 0x45).toNat
  | .afr => resultOf (airFuelRatio (adc 1).toNat)
  | .ses => boolResult ((mem 0x0B).getLsbD 0)
  | .run => boolResult ((mem 0x01).getLsbD 7)
  | .dtc k => resultOf (troubleCode (activeCodes (mem 0x12) (mem 0x13) (mem 0x14)) k)
  | _ => 0

/-- A view request answers its result from the snapshot and changes nothing (R200). -/
theorem exec_view {i : Instr} (hi : IsViewRequest i) (s : State) :
    exec i s = .next (s.completed none [] (viewResult s.mem s.adc i) []) := by
  rcases hi with hi | ⟨k, rfl⟩
  · simp only [List.mem_cons, List.not_mem_nil, or_false] at hi
    rcases hi with rfl | rfl | rfl | rfl | rfl | rfl | rfl | rfl <;> exact respond_completed s _ []
  · exact respond_completed s _ []

/-- The result of a view request depends on the snapshot elements R52 lists only. -/
theorem viewResult_congr {mem mem' : Nat → Byte} {adc adc' : Nat → Half}
    (hmem : ∀ a ∈ [0x01, 0x0B, 0x12, 0x13, 0x14, 0x34, 0x45, 0xE3, 0xF3], mem a = mem' a)
    (hadc : ∀ j ∈ [1, 2], adc j = adc' j) (i : Instr) : viewResult mem adc i = viewResult mem' adc' i := by
  simp only [List.forall_mem_cons] at hmem hadc
  obtain ⟨h01, h0B, h12, h13, h14, h34, h45, hE3, hF3, -⟩ := hmem
  obtain ⟨h1, h2, -⟩ := hadc
  cases i with
  | engspd => rw [viewResult, viewResult, hF3]
  | gndspd => rw [viewResult, viewResult, h34]
  | oilp => rw [viewResult, viewResult, h2]
  | wtemp => rw [viewResult, viewResult, hE3]
  | volt => rw [viewResult, viewResult, h45]
  | afr => rw [viewResult, viewResult, h1]
  | ses => rw [viewResult, viewResult, h0B]
  | run => rw [viewResult, viewResult, h01]
  | dtc k => rw [viewResult, viewResult, h12, h13, h14]
  | push | popb | popnb | write | read | rxbyte | txready | feed | wasupd | free | avail | wspace | ravail
  | rxlost | nbytes | ngood | nbad | conn | mem | adc => rfl

/-- Settles O60: both states answer the one result their common elements give. -/
theorem viewDependsOnlyOnItsElements : Obligations.ViewDependsOnlyOnItsElements := by
  intro i s t hi hmem hadc
  refine ⟨viewResult s.mem s.adc i, exec_view hi s, ?_⟩
  rw [viewResult_congr hmem hadc]
  exact exec_view hi t

end Sys2Proof.Machine

/-! The order of the bytes in the two channels over the event history (R62, R122): what a step's events say of a
channel accounts for what the step did to its contents. -/

namespace Sys2Proof.Machine

/-! ### Both channels in one vocabulary -/

/-- The bytes an event records as given to a channel: written into RX, offered to TX. -/
def givenBy : Chan → Event → List Byte
  | .rx => rxInsertedBy
  | .tx => txOfferedBy

/-- The bytes an event records as removed from a channel. -/
def removedBy : Chan → Event → List Byte
  | .rx => rxRemovedBy
  | .tx => txRemovedBy

/-- The contents of the named channel (R25). -/
def State.contentsOf (s : State) (ch : Chan) : List (Option Byte) :=
  (s.chan ch).contents (Config.cap s.cfg ch)

/-- What the request `w`, with `rest` of its data left, has still to copy into a channel: only a `WRITE` copies
data, and only into TX (R121). -/
def toCopy : Chan → Word → List Byte → List Byte
  | .rx, _, _ => []
  | .tx, w, rest =>
    match decode w with
    | .ok (.write _) => rest
    | _ => []

/-- What agent `a`'s request in flight has still to copy into a channel (R37). -/
def State.inFlight (s : State) (ch : Chan) (a : Agent) : List Byte :=
  match s.conts.get a with
  | none => []
  | some k => toCopy ch k.word k.rest

/-- What is given to a channel and not in it yet: nothing on RX, the rest of a `WRITE` on TX. -/
def State.pending (s : State) : Chan → List Byte
  | .rx => []
  | .tx => s.txPending

/-- A channel is FIFO so far (R62): what it was given is what came out, then what is there, then what is pending. -/
def State.Fifo (s : State) (ch : Chan) : Prop :=
  (s.history.flatMap (givenBy ch)).map some =
    (s.history.flatMap (removedBy ch)).map some ++ s.contentsOf ch ++ (s.pending ch).map some

theorem State.fifo_rx_iff (s : State) : s.Fifo .rx ↔ s.RxFifo := by
  simp [State.Fifo, State.RxFifo, State.pending, State.contentsOf, givenBy, removedBy]

theorem State.fifo_tx_iff (s : State) : s.Fifo .tx ↔ s.TxFifo := Iff.rfl

/-! ### What one event says -/

@[simp] theorem givenBy_condition (ch : Chan) (c : Condition) : givenBy ch (.condition c) = [] := by
  cases ch <;> rfl
@[simp] theorem removedBy_condition (ch : Chan) (c : Condition) : removedBy ch (.condition c) = [] := by
  cases ch <;> rfl
@[simp] theorem givenBy_txStart (ch : Chan) : givenBy ch .txStart = [] := by cases ch <;> rfl
@[simp] theorem removedBy_txStart (ch : Chan) : removedBy ch .txStart = [] := by cases ch <;> rfl
@[simp] theorem givenBy_hold (ch : Chan) (a : Agent) (ch' : Chan) : givenBy ch (.hold a ch') = [] := by
  cases ch <;> rfl
@[simp] theorem removedBy_hold (ch : Chan) (a : Agent) (ch' : Chan) : removedBy ch (.hold a ch') = [] := by
  cases ch <;> rfl
@[simp] theorem givenBy_resume (ch : Chan) (a : Agent) (ch' : Chan) : givenBy ch (.resume a ch') = [] := by
  cases ch <;> rfl
@[simp] theorem removedBy_resume (ch : Chan) (a : Agent) (ch' : Chan) : removedBy ch (.resume a ch') = [] := by
  cases ch <;> rfl
@[simp] theorem removedBy_request (ch : Chan) (a : Agent) (w : Word) (data : List Byte) :
    removedBy ch (.request a w data) = [] := by cases ch <;> rfl

/-- Issuing a request gives a channel what the request is to copy into it (log 8). -/
@[simp] theorem givenBy_request (ch : Chan) (a : Agent) (w : Word) (data : List Byte) :
    givenBy ch (.request a w data) = toCopy ch w data := by cases ch <;> rfl

/-- The bytes a completed request has given to a channel: an accepted `PUSH` or `RXBYTE` (R102, R126). -/
def responseGives (ch : Chan) : Instr → Word → List Byte
  | .push ch' b, r => if ch' = ch ∧ r = 1 then [b] else []
  | .rxbyte b, r => if ch = .rx ∧ r = 1 then [b] else []
  | _, _ => []

/-- The bytes a completed request has removed from a channel (R74, R128). -/
def responseRemoves (ch : Chan) : Instr → Response → List Byte
  | .popb, r => if ch = .rx then r.data else []
  | .popnb ch' _, r => if ch' = ch then r.data else []
  | .read _ _, r => if ch = .rx then r.data else []
  | .txready, r => if ch = .tx ∧ r.result.getLsbD 8 = true then [r.result.truncate 8] else []
  | _, _ => []

theorem givenBy_response {i : Instr} {w : Word} (hd : decode w = .ok i) (ch : Chan) (a : Agent) (r : Response) :
    givenBy ch (.response a w r) = responseGives ch i r.result := by
  cases ch with
  | rx =>
    simp only [givenBy, rxInsertedBy, hd]
    cases i with
    | push ch' b => cases ch' <;> simp [responseGives]
    | _ => simp [responseGives]
  | tx =>
    simp only [givenBy, txOfferedBy, hd]
    cases i with
    | push ch' b => cases ch' <;> simp [responseGives]
    | _ => simp [responseGives]

theorem removedBy_response {i : Instr} {w : Word} (hd : decode w = .ok i) (ch : Chan) (a : Agent)
    (r : Response) : removedBy ch (.response a w r) = responseRemoves ch i r := by
  cases ch with
  | rx =>
    simp only [removedBy, rxRemovedBy, hd]
    cases i with
    | popnb ch' n => cases ch' <;> simp [responseRemoves]
    | _ => simp [responseRemoves]
  | tx =>
    simp only [removedBy, txRemovedBy, hd]
    cases i with
    | popnb ch' n => cases ch' <;> simp [responseRemoves]
    | _ => simp [responseRemoves]

/-- The ILLEGAL answer moves no byte (R76). -/
theorem response_of_error {w : Word} {e : Illegal} (hd : decode w = .error e) (ch : Chan) (a : Agent)
    (r : Response) : givenBy ch (.response a w r) = [] ∧ removedBy ch (.response a w r) = [] := by
  cases ch <;> simp [givenBy, removedBy, rxInsertedBy, rxRemovedBy, txOfferedBy, txRemovedBy, hd]

theorem toCopy_of_ne_write {w : Word} (h : ∀ n, decode w ≠ .ok (.write n)) (ch : Chan) (rest : List Byte) :
    toCopy ch w rest = [] := by
  cases ch with
  | rx => rfl
  | tx =>
    cases hd : decode w with
    | error e => simp [toCopy, hd]
    | ok i =>
      cases i with
      | write n => exact absurd hd (h n)
      | _ => simp [toCopy, hd]

@[simp] theorem toCopy_nil (ch : Chan) (w : Word) : toCopy ch w [] = [] := by
  cases ch with
  | rx => rfl
  | tx =>
    simp only [toCopy]
    split <;> rfl

theorem toCopy_write {w : Word} {n : Nat} (h : decode w = .ok (.write n)) (rest : List Byte) :
    toCopy .tx w rest = rest := by simp [toCopy, h]

/-- Requests of other roles than a channel's producer give it nothing and copy nothing into it (R227). -/
theorem nothing_given_of_role {i : Instr} {ch : Chan} (h : roleOf i ≠ some (producerRole ch)) :
    (∀ r, responseGives ch i r = []) ∧ ∀ w rest, decode w = .ok i → toCopy ch w rest = [] := by
  cases i with
  | push ch' b =>
    have hch : ch' ≠ ch := fun heq => h (by rw [heq, roleOf])
    exact ⟨fun r => by simp [responseGives, hch], fun w rest hd => toCopy_of_ne_write (by simp [hd]) ch rest⟩
  | rxbyte b =>
    have hch : ch ≠ .rx := fun heq => h (by rw [heq]; rfl)
    exact ⟨fun r => by simp [responseGives, hch], fun w rest hd => toCopy_of_ne_write (by simp [hd]) ch rest⟩
  | write n =>
    cases ch with
    | rx => exact ⟨fun _ => rfl, fun _ _ _ => rfl⟩
    | tx => exact absurd rfl h
  | _ => exact ⟨fun _ => rfl, fun w rest hd => toCopy_of_ne_write (by simp [hd]) ch rest⟩

/-- A query's response removes nothing (R59). -/
theorem responseRemoves_of_query {i : Instr} (h : roleOf i = none) (ch : Chan) (r : Response) :
    responseRemoves ch i r = [] := by
  cases i with
  | popb | popnb | read | txready => cases h
  | _ => rfl

/-! ### What an agent has in flight -/

section InFlight

variable {s t : State} {a : Agent}

theorem State.inFlight_of_none (h : s.conts.get a = none) (ch : Chan) : s.inFlight ch a = [] := by
  simp [State.inFlight, h]

theorem State.inFlight_of_some {k : Continuation} (h : s.conts.get a = some k) (ch : Chan) :
    s.inFlight ch a = toCopy ch k.word k.rest := by
  simp [State.inFlight, h]

theorem State.inFlight_congr (h : t.conts.get a = s.conts.get a) (ch : Chan) :
    t.inFlight ch a = s.inFlight ch a := by
  unfold State.inFlight
  rw [h]

@[simp] theorem State.inFlight_rx (s : State) (a : Agent) : s.inFlight .rx a = [] := by
  unfold State.inFlight
  split <;> rfl

/-- A response ends the request of the agent at the port (R37). -/
theorem State.inFlight_answer (h : s.port.agent = a) (st : Status) (r : Word) (d : List Byte) (ch : Chan) :
    (s.answer st r d).inFlight ch a = [] :=
  State.inFlight_of_none (by rw [State.answer_conts, h, PerAgent.get_set_same]) ch

/-- A suspended request keeps the rest of its data (R37). -/
theorem State.inFlight_suspend (h : s.port.agent = a) (w : Option Chan) (ch : Chan) :
    (s.suspend w).inFlight ch a = toCopy ch s.port.word s.port.rest :=
  State.inFlight_of_some (k := ⟨s.port.word, s.port.done, s.port.rest, w⟩)
    (by rw [State.suspend_conts, h, PerAgent.get_set_same]) ch

end InFlight

/-! ### What the operations do to the contents -/

section Contents

variable {s : State}

theorem State.contentsOf_setChan (s : State) (ch ch' : Chan) (c : Channel) :
    (s.setChan ch c).contentsOf ch' =
      if ch = ch' then c.contents (Config.cap s.cfg ch) else s.contentsOf ch' := by
  cases ch <;> cases ch' <;> rfl

@[simp] theorem State.contentsOf_answer (s : State) (st : Status) (r : Word) (d : List Byte) (ch : Chan) :
    (s.answer st r d).contentsOf ch = s.contentsOf ch := by cases ch <;> rfl

@[simp] theorem State.contentsOf_suspend (s : State) (w : Option Chan) (ch : Chan) :
    (s.suspend w).contentsOf ch = s.contentsOf ch := by cases ch <;> rfl

@[simp] theorem State.contentsOf_emit (s : State) (e : Event) (ch : Chan) :
    (s.emit e).contentsOf ch = s.contentsOf ch := by cases ch <;> rfl

@[simp] theorem State.contentsOf_meets (s : State) (c : Condition) (ch : Chan) :
    (s.meets c).contentsOf ch = s.contentsOf ch := s.contentsOf_emit _ ch

@[simp] theorem State.contentsOf_signalWrite (s : State) (ch ch' : Chan) :
    (s.signalWrite ch).contentsOf ch' = s.contentsOf ch' := by cases ch <;> cases ch' <;> rfl

@[simp] theorem State.contentsOf_txHyst (s : State) (f0 f1 : Nat) (ch : Chan) :
    (s.txHyst f0 f1).contentsOf ch = s.contentsOf ch := by
  unfold State.txHyst
  split
  · cases ch <;> rfl
  · rfl

@[simp] theorem State.contentsOf_signalRemoval (s : State) (ch : Chan) (f0 f1 : Nat) (ch' : Chan) :
    (s.signalRemoval ch f0 f1).contentsOf ch' = s.contentsOf ch' := by
  cases ch with
  | rx => rfl
  | tx => exact State.contentsOf_txHyst s f0 f1 ch'

@[simp] theorem State.contentsOf_feedArm (b : Byte) (s : State) (ch : Chan) :
    (feedArm b s).contentsOf ch = s.contentsOf ch := by
  cases ch <;> simp [State.contentsOf]

theorem State.BlockOk.contentsOf_putByte (hs : s.BlockOk) {ch : Chan} (b : Byte)
    (hroom : (s.chan ch).count < Config.cap s.cfg ch) (ch' : Chan) :
    (s.putByte ch b).contentsOf ch' = s.contentsOf ch' ++ if ch = ch' then [some b] else [] := by
  rw [State.putByte, State.contentsOf_setChan]
  split
  · next heq => rw [← heq]; exact Channel.put_contents b (hs.chan ch) hroom
  · simp

/-- What is removed from a channel is what stood first in it (R101). -/
theorem State.BlockOk.contentsOf_take (hs : s.BlockOk) {ch : Chan} {n : Nat} (hn : n ≤ (s.chan ch).count)
    (ch' : Chan) :
    s.contentsOf ch' =
      (if ch = ch' then (s.take ch n).1 else []).map some ++ (s.take ch n).2.contentsOf ch' := by
  obtain ⟨hbytes, hleft, -⟩ := State.take_spec s ch n (hs.chan ch) hn
  rw [State.take_eq s ch n, State.contentsOf_setChan]
  split
  · next heq => rw [hbytes, hleft, List.take_append_drop, heq]; rfl
  · rfl

/-- A chunk of a `WRITE` goes from the front of its data to the end of TX, in list order (R121, R122). -/
theorem State.BlockOk.contentsOf_writeChunk (hs : s.BlockOk) {n : Nat} {w : Word}
    (hdata : s.port.done + s.port.rest.length = n) (hd : decode w = .ok (.write n)) (ch : Chan) :
    s.contentsOf ch ++ (toCopy ch w s.port.rest).map some =
      (s.writeChunk n).contentsOf ch ++ (toCopy ch w (s.writeChunk n).port.rest).map some := by
  cases ch with
  | rx => rfl
  | tx =>
    obtain ⟨-, hcontents, -, -, -, hrest, -⟩ := State.writeChunk_spec s n (hs.chan .tx) hdata
    change _ = (s.writeChunk n).tx.contents s.cfg.cTx ++ _
    rw [hcontents, toCopy_write hd, toCopy_write hd, hrest, List.append_assoc, ← List.map_append,
      List.take_append_drop]
    rfl

end Contents

/-! ### What a request's step does -/

section Requests

variable {i : Instr} {s t u : State}

/-- The decoder's arm records conditions only (R153 to R160). -/
theorem feedArm_history (b : Byte) (s : State) :
    ∃ cs : List Condition, (feedArm b s).history = s.history ++ cs.map .condition := by
  unfold feedArm
  split
  case h_1 =>
    unfold feedAwaitSync1
    split
    · exact ⟨[], by simp⟩
    · exact ⟨[.framingError b], by simp⟩
  case h_2 =>
    unfold feedAwaitSync2
    dsimp only
    split
    · exact ⟨[], by simp⟩
    · exact ⟨[.framingError b], by simp⟩
  case h_7 =>
    rcases feedAwaitChecksumLo_cases b s with ⟨-, heq⟩ | ⟨-, heq⟩ <;> rw [heq]
    · exact ⟨[], by simp [publish]⟩
    · exact ⟨[.checksumFailure s.sum b], by simp⟩
  case h_8 => exact ⟨[.stateRecovery b], rfl⟩
  all_goals exact ⟨[], (List.append_nil _).symm⟩

/-- Before its response a request records conditions and `TxStart` only, none of which moves a byte. -/
theorem Effect.history_silent {r : Word} {d : List Byte} (h : Effect i s u r d) (ch : Chan) :
    ∃ es, u.history = s.history ++ es ∧ es.flatMap (givenBy ch) = [] ∧ es.flatMap (removedBy ch) = [] := by
  cases h with
  | query | written | readEmpty | txreadyEmpty | wasupd | push | popb | popnb | read | rxbyte | txready =>
    exact ⟨[], by simp⟩
  | @pushFull ch' => exact ⟨[.condition (.pushFull ch')], by simp⟩
  | @rxbyteLost b => exact ⟨[.condition (.rxOverflow b)], by simp⟩
  | lastChunk => exact ⟨[.txStart], rfl, by simp⟩
  | @feed b =>
    obtain ⟨cs, hcs⟩ := feedArm_history b { s with nBytes := bump s.cfg s.nBytes }
    exact ⟨_, hcs, by simp [List.flatMap_map], by simp [List.flatMap_map]⟩

/-- The result of a `TXREADY` with valid bit 1 carries the byte (R128). -/
theorem txready_result (b : Byte) :
    (0x100#32 ||| b.setWidth 32).getLsbD 8 = true ∧ (0x100#32 ||| b.setWidth 32).truncate 8 = b := by
  refine ⟨by simp, BitVec.eq_of_getLsbD_eq fun j hj => ?_⟩
  interval_cases j <;> simp

/-- A completed request's response accounts for what it did to each channel: what was there, with what the request
still had to copy and what its response gives, is what the response removes and what is there now. -/
theorem Effect.balance {r : Word} {d : List Byte} (h : Effect i s u r d) (hs : s.BlockOk)
    (hd : decode s.port.word = .ok i) (ch : Chan) :
    s.contentsOf ch ++ (toCopy ch s.port.word s.port.rest ++ responseGives ch i r).map some =
      (responseRemoves ch i { status := .ok, result := r, data := d }).map some ++ u.contentsOf ch := by
  have hnot (hw : ∀ n, i ≠ .write n) : toCopy ch s.port.word s.port.rest = [] :=
    toCopy_of_ne_write (fun n => by simpa [hd] using hw n) ch s.port.rest
  cases h with
  | query hi =>
    obtain ⟨hgives, hcopy⟩ := nothing_given_of_role (i := i) (ch := ch) (by simp [hi])
    simp [hgives, hcopy _ _ hd, responseRemoves_of_query hi]
  | @push ch' b _ hroom =>
    rw [hnot nofun, State.contentsOf_signalWrite, hs.contentsOf_putByte b hroom]
    by_cases hch : ch' = ch <;> simp [responseGives, responseRemoves, hch]
  | @popb _ hc =>
    rw [hnot nofun, hs.contentsOf_take (ch := .rx) hc ch]
    simp [responseGives, responseRemoves, eq_comm]
  | @popnb ch' n k _ hk =>
    rw [hnot nofun, hs.contentsOf_take (ch := ch') (hk ▸ Nat.min_le_left _ _) ch]
    simp [responseGives, responseRemoves]
  | written hdata hdone =>
    have hrest : s.port.rest = [] := by simpa [hdone] using hdata
    simp [hrest, responseGives, responseRemoves]
  | @lastChunk n _ hdata hfree hdone =>
    obtain ⟨-, -, -, -, -, -, hleft⟩ := State.writeChunk_spec s n (hs.chan .tx) hdata
    have hrest : (s.writeChunk n).port.rest = [] := by simpa [hdone] using hleft
    have hchunk := hs.contentsOf_writeChunk hdata hd ch
    rw [hrest] at hchunk
    simpa [responseGives, responseRemoves] using hchunk
  | @read wait n k _ hc hk =>
    rw [hnot nofun, hs.contentsOf_take (ch := .rx) (hk ▸ Nat.min_le_left _ _) ch]
    simp [responseGives, responseRemoves, eq_comm]
  | @rxbyte b _ hroom =>
    rw [hnot nofun, State.contentsOf_signalWrite, hs.contentsOf_putByte (ch := .rx) b hroom]
    by_cases hch : ch = .rx <;> simp [responseGives, responseRemoves, hch, eq_comm]
  | @txready _ hc =>
    rw [hnot nofun, State.contentsOf_txHyst, hs.contentsOf_take (ch := .tx) hc ch]
    obtain ⟨hvalid, hbyte⟩ := txready_result (s.tx.head (Config.freeByte s.draws))
    have hhead : (s.take .tx 1).1 = [s.tx.head (Config.freeByte s.draws)] := rfl
    simp only [responseGives, responseRemoves, hvalid, hbyte, hhead]
    simp [eq_comm]
  | pushFull | readEmpty | rxbyteLost | txreadyEmpty | wasupd | feed =>
    rw [hnot nofun]
    cases ch <;> simp [responseGives, responseRemoves, State.contentsOf]

/-- The step of a request accounts for what it did to each channel, what it leaves to be copied included; in a role
other than the channel's producer it gives the channel nothing. -/
theorem Performed.balance (h : Performed i s t) (hs : s.BlockOk) (hd : decode s.port.word = .ok i) (ch : Chan) :
    ∃ es, t.history = s.history ++ es ∧
      s.contentsOf ch ++ (toCopy ch s.port.word s.port.rest ++ es.flatMap (givenBy ch)).map some =
        (es.flatMap (removedBy ch)).map some ++ t.contentsOf ch ++ (t.inFlight ch s.port.agent).map some ∧
      (roleOf i ≠ some (producerRole ch) →
        es.flatMap (givenBy ch) = [] ∧ t.inFlight ch s.port.agent = []) := by
  cases h with
  | @completes _ _ u r d h =>
    obtain ⟨-, -, -, hagent, hword⟩ := h.frame
    obtain ⟨es, hes, hgiven, hremoved⟩ := h.history_silent ch
    have hdu : decode u.port.word = .ok i := hword ▸ hd
    have hdone : (u.answer .ok r d).inFlight ch s.port.agent = [] := State.inFlight_answer hagent .ok r d ch
    refine ⟨es ++ [.response u.port.agent u.port.word { status := .ok, result := r, data := d }],
      by simp [hes], ?_, fun hrole => ⟨?_, hdone⟩⟩
    · simpa [hgiven, hremoved, givenBy_response hdu, removedBy_response hdu, hdone] using h.balance hs hd ch
    · simp [hgiven, givenBy_response hdu, (nothing_given_of_role hrole).1 r]
  | @holds _ _ ch' h =>
    have hleft : ((s.suspend (some ch')).emit (.hold s.port.agent ch')).inFlight ch s.port.agent =
        toCopy ch s.port.word s.port.rest := State.inFlight_suspend rfl (some ch') ch
    refine ⟨[.hold s.port.agent ch'], rfl, ?_, fun hrole => ⟨by simp, ?_⟩⟩
    · rw [hleft]
      simp
    · rw [hleft, (nothing_given_of_role hrole).2 _ _ hd]
  | @staysInFlight n _ hdata hfree hmore =>
    have hleft : ((s.writeChunk n).suspend none).inFlight ch s.port.agent =
        toCopy ch s.port.word (s.writeChunk n).port.rest := State.inFlight_suspend rfl none ch
    refine ⟨[.txStart], rfl, ?_, fun hrole => ⟨by simp, ?_⟩⟩
    · rw [hleft]
      simpa using hs.contentsOf_writeChunk hdata hd ch
    · rw [hleft, (nothing_given_of_role hrole).2 _ _ hd]

end Requests

/-! ### What is in flight under the invariant -/

section Pending

variable {s t : State}

/-- An agent with bytes to copy into a channel holds its producer role (R227). -/
theorem State.Inv.producer_of_inFlight (hs : s.Inv) {ch : Chan} {a : Agent} (h : s.inFlight ch a ≠ []) :
    s.roles.get (producerRole ch) = some a := by
  cases ch with
  | rx => exact absurd (s.inFlight_rx a) h
  | tx =>
    obtain ⟨-, hagents⟩ := s.inv_iff.1 hs
    have hcont := hagents a
    cases hk : s.conts.get a with
    | none => exact absurd (State.inFlight_of_none hk .tx) h
    | some k =>
      rw [State.inFlight_of_some hk] at h
      obtain ⟨n, hd⟩ : ∃ n, decode k.word = .ok (.write n) := by
        by_contra hno
        exact h (toCopy_of_ne_write (not_exists.1 hno) .tx k.rest)
      simp only [State.contOk, hk, hd, Bool.and_eq_true, decide_eq_true_eq] at hcont
      obtain ⟨-, ⟨⟨-, hrole⟩, -⟩, -⟩ := hcont
      exact hrole

theorem State.txPending_of_producer {a : Agent} (h : s.roles.txProducer = some a) :
    s.txPending = s.inFlight .tx a := by
  unfold State.txPending State.inFlight
  simp only [h]
  cases s.conts.get a <;> rfl

/-- What is pending on a channel is what one agent has in flight, and no other has any. -/
theorem State.Inv.pending_cases (hs : s.Inv) (ch : Chan) :
    ∃ a, s.pending ch = s.inFlight ch a ∧ ∀ b, b ≠ a → s.inFlight ch b = [] := by
  have hothers {a : Option Agent} (ha : s.roles.get (producerRole ch) = a) (b : Agent) (hb : a ≠ some b) :
      s.inFlight ch b = [] := by
    by_contra hne
    exact hb (ha.symm.trans (hs.producer_of_inFlight hne))
  cases ch with
  | rx => exact ⟨.ui, by simp [State.pending]⟩
  | tx =>
    cases hr : s.roles.txProducer with
    | none =>
      refine ⟨.ui, ?_, fun b _ => hothers hr b nofun⟩
      rw [hothers hr .ui nofun, State.pending, State.txPending, hr]
    | some a =>
      exact ⟨a, State.txPending_of_producer hr, fun b hb => hothers hr b fun h => hb (Option.some.inj h).symm⟩

theorem State.Inv.pending_eq (hs : s.Inv) {ch : Chan} {a : Agent} (h : ∀ b, b ≠ a → s.inFlight ch b = []) :
    s.pending ch = s.inFlight ch a := by
  obtain ⟨c, hc, hothers⟩ := hs.pending_cases ch
  by_cases hca : c = a
  · rw [hc, hca]
  · rw [hc, h c hca, hothers a (Ne.symm hca)]

/-- What is pending is fixed by what the agents have in flight. -/
theorem State.Inv.pending_congr (hs : s.Inv) (ht : t.Inv) {ch : Chan}
    (h : ∀ b, t.inFlight ch b = s.inFlight ch b) : t.pending ch = s.pending ch := by
  obtain ⟨a, ha, hothers⟩ := hs.pending_cases ch
  rw [ha, ht.pending_eq (a := a) fun b hb => (h b).trans (hothers b hb), h a]

end Pending

/-! ### A step of an agent -/

/-- `Moves ch a s t`: the events of a step of agent `a` from `s` to `t` account for what it did to a channel: what was
there, with what `a` had in flight and what the events give, is what they remove, what is there now and what `a` has
in flight now. And either `a` has no part in filling the channel, or no other agent has anything in flight to it. -/
def Moves (ch : Chan) (a : Agent) (s t : State) : Prop :=
  ∃ es, t.history = s.history ++ es ∧
    s.contentsOf ch ++ (s.inFlight ch a ++ es.flatMap (givenBy ch)).map some =
      (es.flatMap (removedBy ch)).map some ++ t.contentsOf ch ++ (t.inFlight ch a).map some ∧
    ((es.flatMap (givenBy ch) = [] ∧ s.inFlight ch a = [] ∧ t.inFlight ch a = []) ∨
      ∀ b, b ≠ a → s.inFlight ch b = [])

section Steps

variable {s t u : State} {a : Agent}

/-- Taking a request to the port removes nothing, and gives a channel what the request has to copy into it and did
not have in flight yet. -/
theorem State.atPort_balance (h : s.atPort a = some u) (ch : Chan) :
    ∃ es, u.history = s.history ++ es ∧ u.contentsOf ch = s.contentsOf ch ∧ es.flatMap (removedBy ch) = [] ∧
      s.inFlight ch a ++ es.flatMap (givenBy ch) = toCopy ch u.port.word u.port.rest := by
  cases hc : s.conts.get a with
  | none =>
    rw [State.atPort_idle hc] at h
    cases hp : s.programs.get a with
    | nil => simp [hp] at h
    | cons q qs =>
      obtain rfl : s.issue a q qs = u := by simpa [hp] using h
      exact ⟨[.request a q.word q.data], rfl, by cases ch <;> rfl, by simp, by simp [State.inFlight_of_none hc]⟩
  | some k =>
    rw [State.inFlight_of_some hc]
    cases hw : k.waiting with
    | none =>
      rw [State.atPort_inFlight hc hw] at h
      cases h
      exact ⟨[], by simp, by cases ch <;> rfl, rfl, by simp⟩
    | some ch' =>
      rw [State.atPort_held hc hw] at h
      split at h
      · cases h
        exact ⟨[.resume a ch'], by simp, by cases ch <;> cases ch' <;> rfl, by simp, by simp⟩
      · cases h

/-- An agent that may use the producer role of a channel is the only one that can have bytes in flight to it. -/
theorem State.Inv.inFlight_alone (hs : s.Inv) {ch : Chan}
    (hmay : s.roles.get (producerRole ch) = none ∨ s.roles.get (producerRole ch) = some a) {b : Agent}
    (hb : b ≠ a) : s.inFlight ch b = [] := by
  by_contra hne
  have hrole := hs.producer_of_inFlight hne
  rcases hmay with hfree | hmine
  · cases hfree.symm.trans hrole
  · exact hb (Option.some.inj (hrole.symm.trans hmine))

theorem exec_moves {i : Instr} (hs : s.Inv) (hu : s.atPort a = some u) (hd : decode u.port.word = .ok i)
    (h : exec i u = .next t) (ch : Chan) : Moves ch a s t := by
  obtain ⟨-, -, hroles, rfl⟩ := State.atPort_frame hu
  obtain ⟨es, hes, hcontents, hremoved, hgiven⟩ := State.atPort_balance hu ch
  obtain ⟨hadm, hp⟩ := exec_next h
  obtain ⟨hblock, -⟩ := u.inv_iff.1 (hs.atPort hu)
  obtain ⟨es', hes', hbalance, hother⟩ := hp.balance hblock hd ch
  have hclaim : (u.claim (roleOf i)).contentsOf ch = u.contentsOf ch := by cases ch <;> rfl
  refine ⟨es ++ es', by rw [hes', ← List.append_assoc, ← hes]; rfl, ?_, ?_⟩
  · rw [hclaim, hcontents] at hbalance
    rw [List.flatMap_append, List.flatMap_append, ← List.append_assoc (s.inFlight ch _), hgiven, hremoved]
    exact hbalance
  · by_cases hrole : roleOf i = some (producerRole ch)
    · exact .inr fun b hb => hs.inFlight_alone (hroles ▸ hadm.role _ hrole) hb
    · obtain ⟨hgiven', hleft⟩ := hother hrole
      rw [(nothing_given_of_role hrole).2 _ _ hd] at hgiven
      obtain ⟨hbefore, hissued⟩ := List.append_eq_nil_iff.1 hgiven
      exact .inl ⟨by simp [hissued, hgiven'], hbefore, hleft⟩

theorem illegal_moves {e : Illegal} (hu : s.atPort a = some u) (hd : decode u.port.word = .error e) (ch : Chan) :
    Moves ch a s ((u.meets (.illegalCommand u.port.word)).answer .illegal 0 []) := by
  obtain ⟨-, -, -, rfl⟩ := State.atPort_frame hu
  obtain ⟨es, hes, hcontents, hremoved, hgiven⟩ := State.atPort_balance hu ch
  rw [toCopy_of_ne_write (by simp [hd])] at hgiven
  obtain ⟨hbefore, hissued⟩ := List.append_eq_nil_iff.1 hgiven
  have hresponse := response_of_error hd ch u.port.agent
  have hafter (r : Word) :
      ((u.meets (.illegalCommand u.port.word)).answer .illegal r []).inFlight ch u.port.agent = [] :=
    State.inFlight_answer rfl .illegal r [] ch
  refine ⟨es ++ [.condition (.illegalCommand u.port.word), .response u.port.agent u.port.word
    { status := .illegal, result := 0, data := [] }], by simp [hes], ?_, .inl ⟨?_, hbefore, hafter 0⟩⟩
  · simp [hbefore, hissued, hremoved, hresponse, hcontents, hafter]
  · simp [hissued, hresponse]

/-- A step that accounts for what it moved keeps a channel FIFO. -/
theorem State.Fifo.of_moves {ch : Chan} (h : s.Fifo ch) (hmoves : Moves ch a s t) (hs : s.Inv) (ht : t.Inv)
    (hothers : ∀ b, b ≠ a → t.inFlight ch b = s.inFlight ch b) : t.Fifo ch := by
  obtain ⟨es, hes, hbalance, hpart⟩ := hmoves
  have hpending : s.contentsOf ch ++ (s.pending ch ++ es.flatMap (givenBy ch)).map some =
      (es.flatMap (removedBy ch)).map some ++ t.contentsOf ch ++ (t.pending ch).map some := by
    rcases hpart with ⟨hgiven, hbefore, hafter⟩ | halone
    · have hsame : ∀ b, t.inFlight ch b = s.inFlight ch b := by
        intro b
        by_cases hb : b = a
        · rw [hb, hbefore, hafter]
        · exact hothers b hb
      have hmoved : s.contentsOf ch = (es.flatMap (removedBy ch)).map some ++ t.contentsOf ch := by
        simpa [hgiven, hbefore, hafter] using hbalance
      rw [hs.pending_congr ht hsame, hgiven, List.append_nil, ← hmoved]
    · rwa [hs.pending_eq halone, ht.pending_eq fun b hb => (hothers b hb).trans (halone b hb)]
  unfold State.Fifo at h ⊢
  calc (t.history.flatMap (givenBy ch)).map some
      = (s.history.flatMap (givenBy ch)).map some ++ (es.flatMap (givenBy ch)).map some := by simp [hes]
    _ = (s.history.flatMap (removedBy ch)).map some ++
          (s.contentsOf ch ++ (s.pending ch ++ es.flatMap (givenBy ch)).map some) := by
        rw [h]; simp
    _ = (t.history.flatMap (removedBy ch)).map some ++ t.contentsOf ch ++ (t.pending ch).map some := by
        rw [hpending]; simp [hes]

/-- Every step keeps both channels FIFO. -/
theorem step_keeps_fifo (hs : s.Inv) (h : step s = .next t) {ch : Chan} (hfifo : s.Fifo ch) : t.Fifo ch := by
  have ht : t.Inv := everyStepKeepsTheInvariant s t hs h
  obtain ⟨-, hconts⟩ := step_frame h
  obtain ⟨-, ⟨-, rfl⟩ | ⟨later, -, rfl⟩ | ⟨a, later, hsched, hturn⟩⟩ := step_cases h
  · exact hfifo
  · cases ch <;> rfl
  have hrun : ({ s with schedule := later } : State).Inv := hs
  have hrunFifo : ({ s with schedule := later } : State).Fifo ch := hfifo
  have hothers : ∀ b, b ≠ a → t.inFlight ch b = s.inFlight ch b :=
    fun b hb => State.inFlight_congr (hconts a later hsched b hb) ch
  rcases hturn with ⟨-, rfl⟩ | ⟨u, hu, ⟨e, hd, rfl⟩ | ⟨i, hd, hi⟩⟩
  · exact hfifo
  · exact hrunFifo.of_moves (illegal_moves hu hd ch) hrun ht hothers
  · exact hrunFifo.of_moves (exec_moves hrun hu hd hi ch) hrun ht hothers

end Steps

/-- Settles O18: the history, RX and its pending bytes are empty at reset, and every step keeps RX FIFO. -/
theorem rxChannelIsFifo : Obligations.RxChannelIsFifo :=
  ⟨fun _ => rfl, fun s t hs h hstep => t.fifo_rx_iff.1 (step_keeps_fifo hs hstep (s.fifo_rx_iff.2 h))⟩

/-- Settles O19: the history, TX and its pending bytes are empty at reset, and every step keeps TX FIFO. -/
theorem txChannelIsFifo : Obligations.TxChannelIsFifo :=
  ⟨fun _ => rfl, fun _ _ hs h hstep => step_keeps_fifo (ch := .tx) hs hstep h⟩

end Sys2Proof.Machine

/-! The statements of 30_encoding: the decoder against the encoder (R70, R73, R79), against the table's match and
mask (R72) and against the assembler (R80); what the block does with an illegal word (R76) and with a `WRITE`
whose data list does not fit (R75). -/

namespace Sys2Proof

/-! ### What a format admits (R72) -/

/-- Every bit of `CH`, `W` and 15:0 that the format fixes is 0. -/
structure Format.Fits (f : Format) (ch wait : Bool) (imm : Half) : Prop where
  channel : ch = true → f.hasChannel = true
  wait : wait = true → f.hasWait = true
  operand : imm.toNat < 2 ^ f.operandBits

/-- What the decoder reads fields as: the request of the opcode's row, if the fixed bits are 0 (R72, R76). -/
theorem decodeFields_eq_ok {op : BitVec 6} {ch wait : Bool} {rsv : BitVec 8} {imm : Half} {i : Instr} :
    decodeFields op ch wait rsv imm = .ok i ↔
      ∃ f build, opcodeRow op = some (f, build) ∧ rsv = 0#8 ∧ f.Fits ch wait imm ∧
        build { ch := chanOf ch, wait := wait, imm := imm } = i := by
  unfold decodeFields
  cases hrow : opcodeRow op with
  | none => simp
  | some row =>
    obtain ⟨f, build⟩ := row
    constructor
    · intro h
      dsimp only at h
      iterate 4 (split at h; · cases h)
      next hrsv hch hwait himm =>
        cases h
        exact ⟨f, build, rfl, not_not.1 hrsv, ⟨by simpa using hch, by simpa using hwait, by omega⟩, rfl⟩
    · rintro ⟨_, _, ⟨⟩, rfl, ⟨hch, hwait, himm⟩, rfl⟩
      have hnch : ¬ (ch = true ∧ f.hasChannel = false) := by simpa using hch
      have hnwait : ¬ (wait = true ∧ f.hasWait = false) := by simpa using hwait
      simp [hnch, hnwait, Nat.not_le.2 himm]

/-- What the decoder reads a word as. -/
theorem decode_eq_ok {w : Word} {i : Instr} :
    decode w = .ok i ↔
      ∃ f build, opcodeRow (opField w) = some (f, build) ∧ rsvField w = 0#8 ∧
        f.Fits (chBit w) (waitBit w) (immField w) ∧
        build { ch := chanOf (chBit w), wait := waitBit w, imm := immField w } = i :=
  decodeFields_eq_ok

/-! ### Encoding, then decoding -/

/-- A word put together from an opcode and operands that fit its format decodes as its row says. -/
theorem decode_mkWord_of_row {op : BitVec 6} {ch wait : Bool} {imm : Half} {f : Format}
    {build : Operands → Instr} (hrow : opcodeRow op = some (f, build)) (hfit : f.Fits ch wait imm) :
    decode (mkWord op ch wait 0 imm) = .ok (build { ch := chanOf ch, wait := wait, imm := imm }) := by
  rw [decode_mkWord]
  exact decodeFields_eq_ok.2 ⟨f, build, hrow, rfl, hfit, rfl⟩

/-- A request without operands. -/
theorem decode_mkWord_bare {op : BitVec 6} {i : Instr} (hrow : opcodeRow op = some (.Z, fun _ => i)) :
    decode (mkWord op false false 0 0) = .ok i :=
  decode_mkWord_of_row hrow ⟨nofun, nofun, Nat.one_pos⟩

/-- A request whose one operand is a channel, in format C. -/
theorem decode_mkWord_channel {op : BitVec 6} {ch : Bool} {build : Chan → Instr}
    (hrow : opcodeRow op = some (.C, fun o => build o.ch)) :
    decode (mkWord op ch false 0 0) = .ok (build (chanOf ch)) :=
  decode_mkWord_of_row hrow ⟨fun _ => rfl, nofun, Nat.one_pos⟩

/-- A request with a byte operand, in format CB or B. -/
theorem decode_mkWord_byte {op : BitVec 6} {ch : Bool} (f : Format) {build : Chan → Byte → Instr} {b : Byte}
    (hrow : opcodeRow op = some (f, fun o => build o.ch o.byte)) (hch : ch = true → f.hasChannel = true)
    (hbits : f.operandBits = 8) :
    decode (mkWord op ch false 0 (b.setWidth 16)) = .ok (build (chanOf ch) b) := by
  have hfit : f.Fits ch false (b.setWidth 16) := ⟨hch, nofun, by simp [hbits]; omega⟩
  have hbyte : (b.setWidth 16).truncate 8 = b := by simp [BitVec.truncate_eq_setWidth]
  simpa [Operands.byte, hbyte] using decode_mkWord_of_row hrow hfit

theorem Format.operandBits_le (f : Format) : f.operandBits ≤ 16 := by
  cases f <;> decide

/-- A request with a number operand, in any format that has one. -/
theorem decode_mkWord_number {op : BitVec 6} {ch wait : Bool} (f : Format) {build : Chan → Bool → Nat → Instr}
    {n : Nat} (hrow : opcodeRow op = some (f, fun o => build o.ch o.wait o.imm.toNat))
    (hch : ch = true → f.hasChannel = true) (hwait : wait = true → f.hasWait = true)
    (hn : n < 2 ^ f.operandBits) :
    decode (mkWord op ch wait 0 (BitVec.ofNat 16 n)) = .ok (build (chanOf ch) wait n) := by
  have hn16 : n < 2 ^ 16 := hn.trans_le (Nat.pow_le_pow_right (by decide) f.operandBits_le)
  have himm : (BitVec.ofNat 16 n).toNat = n := by simpa using hn16
  have hword := decode_mkWord_of_row hrow ⟨hch, hwait, himm.symm ▸ hn⟩
  rwa [himm] at hword

/-- Settles O1, request by request along the formats. -/
theorem decodeEncodeRoundTrip : Obligations.DecodeEncodeRoundTrip := by
  intro i hi
  cases i with
  | push ch b =>
    simpa [encode] using
      decode_mkWord_byte .CB (op := 0x01) (ch := ch.bit) (build := .push) (b := b) rfl (fun _ => rfl) rfl
  | free ch => simpa [encode] using decode_mkWord_channel (op := 0x04) (ch := ch.bit) (build := .free) rfl
  | avail ch => simpa [encode] using decode_mkWord_channel (op := 0x05) (ch := ch.bit) (build := .avail) rfl
  | popnb ch n =>
    simpa [encode] using
      decode_mkWord_number .CN (op := 0x03) (ch := ch.bit) (wait := false) (build := fun ch _ => .popnb ch)
        rfl (fun _ => rfl) nofun (of_decide_eq_true hi)
  | rxbyte b => exact decode_mkWord_byte .B (build := fun _ => .rxbyte) rfl nofun rfl
  | feed b => exact decode_mkWord_byte .B (build := fun _ => .feed) rfl nofun rfl
  | read wait n =>
    exact decode_mkWord_number .WN (build := fun _ => .read) rfl nofun (fun _ => rfl) (of_decide_eq_true hi)
  | write n =>
    exact decode_mkWord_number .N (build := fun _ _ => .write) rfl nofun nofun (of_decide_eq_true hi)
  | mem a => exact decode_mkWord_number .B (build := fun _ _ => .mem) rfl nofun nofun (of_decide_eq_true hi)
  | adc j => exact decode_mkWord_number .I3 (build := fun _ _ => .adc) rfl nofun nofun (of_decide_eq_true hi)
  | dtc k => exact decode_mkWord_number .I16 (build := fun _ _ => .dtc) rfl nofun nofun (of_decide_eq_true hi)
  | popb | wspace | ravail | txready | rxlost | wasupd | nbytes | ngood | nbad | conn | engspd | gndspd | oilp
  | wtemp | volt | afr | ses | run => exact decode_mkWord_bare rfl

/-! ### Decoding, then encoding -/

/-- What the row of an opcode owes the table and the encoder (R71, R73): its requests are those of the table's row
with that `OP`; operands that fit the format lie in their fields, and are encoded as they were read. -/
structure RowSound (op : BitVec 6) (f : Format) (build : Operands → Instr) : Prop where
  mem_table : ∀ o, ((build o).mnemonic, op, f) ∈ opcodeTable
  wellFormed : ∀ o, o.imm.toNat < 2 ^ f.operandBits → (build o).wellFormed = true
  encode_build : ∀ ch wait imm, f.Fits ch wait imm →
    encode (build { ch := chanOf ch, wait := wait, imm := imm }) = mkWord op ch wait 0 imm

/-- A flag that is 1 only where the format has its field is left as it is by AND with that. -/
theorem and_eq_of_imp {a b : Bool} (h : b = true → a = true) : (a && b) = b := by
  cases b <;> simp_all

/-- An operand field of no bits is 0. -/
theorem imm_eq_zero {imm : Half} (h : imm.toNat < 2 ^ 0) : imm = 0 :=
  BitVec.eq_of_toNat_eq (by simpa using h)

/-- A byte operand that fits is all of `word[15:0]`. -/
theorem setWidth_byte {o : Operands} (h : o.imm.toNat < 2 ^ 8) : o.byte.setWidth 16 = o.imm := by
  refine BitVec.eq_of_toNat_eq ?_
  simp [Operands.byte]
  omega

/-! The rows by shape. What is left to check of one row is routine: the table has it, `encode` writes its operands
into its fields. -/

section Rows

variable {op : BitVec 6} {f : Format}

/-- The row of a request without operands. -/
theorem RowSound.bare {i : Instr} (hmem : (i.mnemonic, op, .Z) ∈ opcodeTable := by decide)
    (hwf : i.wellFormed = true := by rfl) (henc : encode i = mkWord op false false 0 0 := by rfl) :
    RowSound op .Z fun _ => i where
  mem_table _ := hmem
  wellFormed _ _ := hwf
  encode_build ch wait imm := by
    rintro ⟨hch, hwait, himm⟩
    rw [henc, imm_eq_zero himm, ← and_eq_of_imp hch, ← and_eq_of_imp hwait]
    rfl

/-- The row of a request whose one operand is a channel. -/
theorem RowSound.channel (m : String) (build : Chan → Instr) (hmem : (m, op, .C) ∈ opcodeTable := by decide)
    (hm : ∀ ch, (build ch).mnemonic = m := by exact fun _ => rfl)
    (hwf : ∀ ch, (build ch).wellFormed = true := by exact fun _ => rfl)
    (henc : ∀ ch, encode (build ch) = mkWord op ch.bit false 0 0 := by exact fun _ => rfl) :
    RowSound op .C fun o => build o.ch where
  mem_table o := hm o.ch ▸ hmem
  wellFormed o _ := hwf o.ch
  encode_build ch wait imm := by
    rintro ⟨-, hwait, himm⟩
    rw [henc, bit_chanOf, imm_eq_zero himm, ← and_eq_of_imp hwait]
    rfl

/-- The row of a request with a byte operand. -/
theorem RowSound.byte (m : String) (build : Chan → Byte → Instr) (hbits : f.operandBits = 8 := by rfl)
    (hnowait : f.hasWait = false := by rfl) (hmem : (m, op, f) ∈ opcodeTable := by decide)
    (hm : ∀ ch b, (build ch b).mnemonic = m := by exact fun _ _ => rfl)
    (hwf : ∀ ch b, (build ch b).wellFormed = true := by exact fun _ _ => rfl)
    (henc : ∀ ch b, encode (build ch b) = mkWord op (f.hasChannel && ch.bit) false 0 (b.setWidth 16) := by
      exact fun _ _ => rfl) :
    RowSound op f fun o => build o.ch o.byte where
  mem_table o := hm o.ch o.byte ▸ hmem
  wellFormed o _ := hwf o.ch o.byte
  encode_build ch wait imm := by
    rintro ⟨hch, hwait, himm⟩
    rw [henc, bit_chanOf, and_eq_of_imp hch, setWidth_byte (hbits ▸ himm), ← and_eq_of_imp hwait, hnowait]
    rfl

/-- The row of a request with a number operand. -/
theorem RowSound.number (m : String) (build : Chan → Bool → Nat → Instr)
    (hmem : (m, op, f) ∈ opcodeTable := by decide)
    (hm : ∀ ch wait n, (build ch wait n).mnemonic = m := by exact fun _ _ _ => rfl)
    (hwf : ∀ ch wait n, n < 2 ^ f.operandBits → (build ch wait n).wellFormed = true := by
      exact fun _ _ _ => decide_eq_true)
    (henc : ∀ ch wait n, encode (build ch wait n) =
        mkWord op (f.hasChannel && ch.bit) (f.hasWait && wait) 0 (BitVec.ofNat 16 n) := by
      exact fun _ _ _ => rfl) :
    RowSound op f fun o => build o.ch o.wait o.imm.toNat where
  mem_table o := hm o.ch o.wait o.imm.toNat ▸ hmem
  wellFormed o := hwf o.ch o.wait o.imm.toNat
  encode_build ch wait imm := by
    rintro ⟨hch, hwait, -⟩
    rw [henc, bit_chanOf, and_eq_of_imp hch, and_eq_of_imp hwait, BitVec.ofNat_toNat, BitVec.setWidth_eq]

end Rows

/-- An opcode is named by its value. -/
theorem op_eq_ofNat {op : BitVec 6} {n : Nat} (h : op.toNat = n) : op = BitVec.ofNat 6 n := by
  simp [← h]

/-- Every row the decoder has is sound (R71). The cases stand in the order of `opcodeRow`: those with operands by
mnemonic, then the requests without operands, which are one argument. -/
theorem opcodeRow_sound {op : BitVec 6} {f : Format} {build : Operands → Instr}
    (h : opcodeRow op = some (f, build)) : RowSound op f build := by
  unfold opcodeRow at h
  split at h
  case h_30 => cases h
  all_goals
    rename_i hop
    rw [Option.some.injEq, Prod.mk.injEq] at h
    obtain ⟨rfl, rfl⟩ := h
    rw [op_eq_ofNat hop]
  case h_1 => exact .byte "PUSH" .push
  case h_3 => exact .number "POPNB" fun ch _ => .popnb ch
  case h_4 => exact .channel "FREE" .free
  case h_5 => exact .channel "AVAIL" .avail
  case h_6 => exact .number "WRITE" fun _ _ => .write
  case h_7 => exact .number "READ" fun _ => .read
  case h_10 => exact .byte "RXBYTE" fun _ => .rxbyte
  case h_13 => exact .byte "FEED" fun _ => .feed
  case h_19 => exact .number "MEM" fun _ _ => .mem
  case h_20 => exact .number "ADC" fun _ _ => .adc
  case h_29 => exact .number "DTC" fun _ _ => .dtc
  all_goals exact .bare

/-- A word that decodes is the word of a well-formed request, which the table's row with its `OP` names. -/
theorem decode_ok {w : Word} {i : Instr} (h : decode w = .ok i) :
    i.wellFormed = true ∧ encode i = w ∧
      ∃ f, (i.mnemonic, opField w, f) ∈ opcodeTable ∧ rsvField w = 0 ∧
        f.Fits (chBit w) (waitBit w) (immField w) := by
  obtain ⟨f, build, hrow, hrsv, hfit, rfl⟩ := decode_eq_ok.1 h
  have hsound := opcodeRow_sound hrow
  refine ⟨hsound.wellFormed _ hfit.operand, ?_, f, hsound.mem_table _, hrsv, hfit⟩
  calc encode (build { ch := chanOf (chBit w), wait := waitBit w, imm := immField w })
      = mkWord (opField w) (chBit w) (waitBit w) 0 (immField w) := hsound.encode_build _ _ _ hfit
    _ = mkWord (opField w) (chBit w) (waitBit w) (rsvField w) (immField w) := by rw [hrsv]; rfl
    _ = w := mkWord_fields w

/-- Settles O2: a word decodes to the request it encodes, and by the round trip to no other. -/
theorem everyWordIsOneRequestOrIllegal : Obligations.EveryWordIsOneRequestOrIllegal := by
  intro w
  cases hd : decode w with
  | ok i =>
    obtain ⟨hwf, henc, -⟩ := decode_ok hd
    refine .inl ⟨i, rfl, hwf, henc, fun j hj hw => ?_⟩
    have hround : decode w = .ok j := hw ▸ decodeEncodeRoundTrip j hj
    exact Except.ok.inj (hround.symm.trans hd)
  | error e =>
    refine .inr ⟨e, rfl, fun j hj hw => ?_⟩
    have hround : decode w = .ok j := hw ▸ decodeEncodeRoundTrip j hj
    exact nomatch hround.symm.trans hd

/-! ### The table's match and mask (R72) -/

/-- Words are equal when their fields are. -/
theorem mkWord_inj {op op' : BitVec 6} {ch ch' wait wait' : Bool} {rsv rsv' : BitVec 8} {imm imm' : Half} :
    mkWord op ch wait rsv imm = mkWord op' ch' wait' rsv' imm' ↔
      op = op' ∧ ch = ch' ∧ wait = wait' ∧ rsv = rsv' ∧ imm = imm' := by
  refine ⟨fun h => ⟨?_, ?_, ?_, ?_, ?_⟩, by rintro ⟨rfl, rfl, rfl, rfl, rfl⟩; rfl⟩
  · simpa using congrArg opField h
  · simpa using congrArg chBit h
  · simpa using congrArg waitBit h
  · simpa using congrArg rsvField h
  · simpa using congrArg immField h

/-- AND works field by field. -/
theorem mkWord_and (op op' : BitVec 6) (ch ch' wait wait' : Bool) (rsv rsv' : BitVec 8) (imm imm' : Half) :
    mkWord op ch wait rsv imm &&& mkWord op' ch' wait' rsv' imm' =
      mkWord (op &&& op') (ch && ch') (wait && wait') (rsv &&& rsv') (imm &&& imm') := by
  refine BitVec.eq_of_getLsbD_eq fun i hi => ?_
  simp only [BitVec.getLsbD_and, getLsbD_mkWord _ _ _ _ _ _ hi]
  split_ifs <;> rfl

/-- The mask of a format has a 1 at each bit the format fixes. -/
theorem mask_eq_mkWord (f : Format) :
    f.mask = mkWord (BitVec.allOnes 6) (!f.hasChannel) (!f.hasWait) (BitVec.allOnes 8)
      (BitVec.allOnes 16 <<< f.operandBits) := by
  cases f <;> rfl

theorem matchOf_eq_mkWord (op : BitVec 6) : matchOf op = mkWord op false false 0 0 := by
  simp [matchOf, mkWord]

/-- The bits from `k` up are 0 exactly when the value is below `2 ^ k`. -/
theorem and_allOnes_shiftLeft_eq_zero (imm : Half) (k : Nat) :
    imm &&& (BitVec.allOnes 16 <<< k) = 0 ↔ imm.toNat < 2 ^ k := by
  constructor
  · intro h
    refine Nat.lt_pow_two_of_testBit _ fun i hi => ?_
    by_cases hi16 : i < 16
    · have hbit : (imm &&& (BitVec.allOnes 16 <<< k)).getLsbD i = false := by rw [h]; exact BitVec.getLsbD_zero
      rw [BitVec.getLsbD_and, BitVec.getLsbD_shiftLeft, BitVec.getLsbD_allOnes] at hbit
      have hik : i - k < 16 := by omega
      change imm.getLsbD i = false
      simpa [hi16, Nat.not_lt.2 hi, hik] using hbit
    · exact BitVec.getLsbD_of_ge imm i (Nat.not_lt.1 hi16)
  · intro h
    refine BitVec.eq_of_getLsbD_eq fun i _ => ?_
    by_cases hi : i < k
    · simp [hi]
    · have hbit : imm.getLsbD i = false :=
        Nat.testBit_eq_false_of_lt (h.trans_le (Nat.pow_le_pow_right (by decide) (Nat.not_lt.1 hi)))
      simp [hbit]

/-- Mask and match say that the opcode is the row's and every fixed bit is 0. -/
theorem and_mask_eq_matchOf {w : Word} {op : BitVec 6} {f : Format} :
    w &&& f.mask = matchOf op ↔
      opField w = op ∧ rsvField w = 0 ∧ f.Fits (chBit w) (waitBit w) (immField w) := by
  have hfields : w &&& f.mask = mkWord (opField w) (chBit w && !f.hasChannel) (waitBit w && !f.hasWait)
      (rsvField w) (immField w &&& (BitVec.allOnes 16 <<< f.operandBits)) := by
    conv_lhs => rw [← mkWord_fields w, mask_eq_mkWord, mkWord_and, BitVec.and_allOnes, BitVec.and_allOnes]
  rw [hfields, matchOf_eq_mkWord, mkWord_inj, and_allOnes_shiftLeft_eq_zero]
  constructor
  · rintro ⟨hop, hch, hwait, hrsv, himm⟩
    exact ⟨hop, hrsv, by simpa using hch, by simpa using hwait, himm⟩
  · rintro ⟨hop, hrsv, hch, hwait, himm⟩
    exact ⟨hop, by simpa using hch, by simpa using hwait, hrsv, himm⟩

/-- No two rows share an opcode. -/
theorem opcodeTable_op_inj {r r' : String × BitVec 6 × Format} (hr : r ∈ opcodeTable) (hr' : r' ∈ opcodeTable)
    (h : r.2.1 = r'.2.1) : r = r' :=
  List.inj_on_of_nodup_map (f := fun r => r.2.1) (l := opcodeTable) (by decide) hr hr' h

/-- No two rows share a mnemonic. -/
theorem opcodeTable_mnemonic_inj {r r' : String × BitVec 6 × Format} (hr : r ∈ opcodeTable)
    (hr' : r' ∈ opcodeTable) (h : r.1 = r'.1) : r = r' :=
  List.inj_on_of_nodup_map (f := Prod.fst) (l := opcodeTable) (by decide) hr hr' h

/-- The decoder has every row of the table. -/
theorem opcodeRow_of_mem {r : String × BitVec 6 × Format} (hr : r ∈ opcodeTable) :
    ∃ build, opcodeRow r.2.1 = some (r.2.2, build) := by
  have hfmt : ∀ r ∈ opcodeTable, (opcodeRow r.2.1).map Prod.fst = some r.2.2 := by decide
  obtain ⟨⟨f, build⟩, hrow, rfl⟩ := Option.map_eq_some_iff.1 (hfmt r hr)
  exact ⟨build, hrow⟩

/-- A word decodes as the mnemonic of a row exactly when its mask and match say so. -/
theorem decode_mnemonic_iff {w : Word} {m : String} {op : BitVec 6} {f : Format} (hr : (m, op, f) ∈ opcodeTable) :
    (∃ i, decode w = .ok i ∧ i.mnemonic = m) ↔ w &&& f.mask = matchOf op := by
  rw [and_mask_eq_matchOf]
  constructor
  · rintro ⟨i, hd, rfl⟩
    obtain ⟨-, -, f', hrow, hrsv, hfit⟩ := decode_ok hd
    cases opcodeTable_mnemonic_inj hr hrow rfl
    exact ⟨rfl, hrsv, hfit⟩
  · rintro ⟨rfl, hrsv, hfit⟩
    obtain ⟨build, hrow⟩ := opcodeRow_of_mem hr
    refine ⟨_, decode_eq_ok.2 ⟨f, build, hrow, hrsv, hfit, rfl⟩, ?_⟩
    exact congrArg Prod.fst (opcodeTable_op_inj ((opcodeRow_sound hrow).mem_table _) hr rfl)

/-- Settles O3: mask and match fix the opcode, and with it the row. -/
theorem decodeFollowsMatchAndMask : Obligations.DecodeFollowsMatchAndMask := by
  intro w
  refine ⟨fun m op f hr => decode_mnemonic_iff hr, fun m op f m' op' f' hr hr' hw hw' => ?_⟩
  obtain ⟨hop, -⟩ := and_mask_eq_matchOf.1 hw
  obtain ⟨hop', -⟩ := and_mask_eq_matchOf.1 hw'
  exact opcodeTable_op_inj hr hr' (hop.symm.trans hop')

/-- Settles O4: the thirteen words evaluate as the table of 95_test_vectors 2.1 reads them. -/
theorem vectorWordsDecode : Obligations.VectorWordsDecode := by
  unfold Obligations.VectorWordsDecode
  decide

/-- A word that matches no row is illegal. -/
theorem decode_error_of_no_match {w : Word}
    (h : ∀ m op f, (m, op, f) ∈ opcodeTable → w &&& f.mask ≠ matchOf op) : ∃ e, decode w = .error e := by
  cases hd : decode w with
  | error e => exact ⟨e, rfl⟩
  | ok i =>
    obtain ⟨-, -, f, hrow, -⟩ := decode_ok hd
    exact absurd ((decode_mnemonic_iff hrow).1 ⟨i, hd, rfl⟩) (h _ _ _ hrow)

end Sys2Proof

namespace Sys2Proof.Machine

open Host (Outcome)

/-! ### The assembler (R80) -/

/-- The request names a well-formed instruction by its word, and its data list is the one that word names. -/
def Request.Spells (q : Request) : Prop :=
  ∃ i : Instr, i.wellFormed = true ∧ i.dataFits q.data = true ∧ q.word = encode i

theorem Request.Spells.decodes {q : Request} (h : q.Spells) :
    ∃ i, decode q.word = .ok i ∧ i.wellFormed = true ∧ i.dataFits q.data = true ∧ encode i = q.word := by
  obtain ⟨i, hwf, hdata, hw⟩ := h
  exact ⟨i, hw ▸ decodeEncodeRoundTrip i hwf, hwf, hdata, hw.symm⟩

/-- A request without a data list spells its instruction, unless that is a `WRITE` of bytes. -/
theorem checkedRequest_spells {i : Instr} {q : Request} (hdata : i.dataFits [] = true)
    (h : checkedRequest i = some q) : q.Spells := by
  obtain ⟨hwf, hq⟩ := Option.ite_none_right_eq_some.1 h
  cases hq
  exact ⟨i, hwf, hdata, rfl⟩

theorem writeRequest_spells {bs : List Byte} (h : bs.length < 2 ^ 16) : (writeRequest bs).Spells :=
  ⟨.write bs.length, decide_eq_true h, decide_eq_true rfl, rfl⟩

/-- A shape of instruction that takes no data list takes none whatever operand was read. -/
theorem dataFits_of_map {α : Type} {o : Option α} {build : α → Instr} {i : Instr} (h : o.map build = some i)
    (hbuild : ∀ x, (build x).dataFits [] = true) : i.dataFits [] = true := by
  obtain ⟨x, -, rfl⟩ := Option.map_eq_some_iff.1 h
  exact hbuild x

/-- The same where another operand is read first. -/
theorem dataFits_of_bind {α β : Type} {o : Option α} {o' : Option β} {build : α → β → Instr} {i : Instr}
    (h : (o.bind fun x => o'.map (build x)) = some i) (hbuild : ∀ x y, (build x y).dataFits [] = true) :
    i.dataFits [] = true := by
  obtain ⟨x, -, hx⟩ := Option.bind_eq_some_iff.1 h
  exact dataFits_of_map hx (hbuild x)

/-- What holds of every row holds of the row that is found. -/
theorem of_find?_map_snd {α β : Type} {P : β → Prop} {l : List (α × β)} {f : α × β → Bool} {y : β}
    (hall : ∀ p ∈ l, P p.2) (h : (l.find? f).map Prod.snd = some y) : P y := by
  obtain ⟨p, hp, rfl⟩ := Option.map_eq_some_iff.1 h
  exact hall p (List.mem_of_find?_eq_some hp)

theorem bareOp_dataFits {w : List Char} {i : Instr} (h : bareOp w = some i) : i.dataFits [] = true := by
  unfold bareOp at h
  exact of_find?_map_snd (P := fun i => i.dataFits [] = true) (by decide) h

theorem unaryOp_dataFits {w x : List Char} {i : Instr} (h : unaryOp w x = some i) : i.dataFits [] = true := by
  unfold unaryOp at h
  split_ifs at h
  · cases h; rfl
  all_goals exact dataFits_of_map h fun _ => rfl

theorem binaryOp_dataFits {w x y : List Char} {i : Instr} (h : binaryOp w x y = some i) :
    i.dataFits [] = true := by
  unfold binaryOp at h
  split_ifs at h
  all_goals exact dataFits_of_bind h fun _ _ => rfl

/-- Whatever request the words of a line give is spelled by them: one shape of line after the other (R80). -/
theorem requestOfWords_spells {ws : List (List Char)} {q : Request} (h : requestOfWords ws = some q) :
    q.Spells := by
  unfold requestOfWords at h
  split at h
  · obtain ⟨i, hi, hq⟩ := Option.bind_eq_some_iff.1 h
    exact checkedRequest_spells (bareOp_dataFits hi) hq
  · obtain ⟨i, hi, hq⟩ := Option.bind_eq_some_iff.1 h
    exact checkedRequest_spells (unaryOp_dataFits hi) hq
  · obtain ⟨-, hbytes⟩ := Option.ite_none_right_eq_some.1 h
    obtain ⟨bs, -, hq⟩ := Option.bind_eq_some_iff.1 hbytes
    obtain ⟨hlen, hq⟩ := Option.ite_none_right_eq_some.1 hq
    cases hq
    exact writeRequest_spells hlen
  · obtain ⟨i, hi, hq⟩ := Option.bind_eq_some_iff.1 h
    exact checkedRequest_spells (binaryOp_dataFits hi) hq
  · cases h

/-- Settles O5: with or without an agent's name, the words left of a line spell a request. -/
theorem assembledLinesDecode : Obligations.AssembledLinesDecode := by
  intro line a q h
  unfold assembleLine at h
  split at h
  · obtain ⟨ag, -, hrest⟩ := Option.bind_eq_some_iff.1 h
    obtain ⟨q', hq, hpair⟩ := Option.map_eq_some_iff.1 hrest
    cases hpair
    exact (requestOfWords_spells hq).decodes
  · obtain ⟨q', hq, hpair⟩ := Option.map_eq_some_iff.1 h
    cases hpair
    exact (requestOfWords_spells hq).decodes

/-! ### Illegal words (R76) and data lists that do not fit (R75) -/

/-- Settles O7: the issued word is illegal, so it is answered ILLEGAL; the agent, idle before, stays idle. -/
theorem illegalWordChangesNothing : Obligations.IllegalWordChangesNothing := by
  intro s a later q qs hl hs hc hp hno
  obtain ⟨e, hd⟩ := decode_error_of_no_match hno
  have hidle : s.conts.set a none = s.conts := by
    rw [← hc]
    exact PerAgent.set_get_self s.conts a
  calc step s = perform (({ s with schedule := later } : State).issue a q qs) := step_issue hl hs hc hp
    _ = _ := perform_of_error hd
    _ = _ := by simp [State.answer, State.meets, State.emit, State.issue, hidle]

/-- The data check, failed: the data list is not `n` bytes long (R75). -/
theorem withData_unfit {n : Nat} {s : State} {run : State → Outcome State Fault Refusal}
    (h : s.port.done + s.port.rest.length ≠ n) : withData n s run = refuseData s := by
  simp [withData, h]

/-- Settles O25: context and role pass, and the data check refuses. -/
theorem writeWithTheWrongDataIsRefused : Obligations.WriteWithTheWrongDataIsRefused := by
  intro n s hctx hrole hdone hlen
  have hunfit : s.port.done + s.port.rest.length ≠ n := by omega
  change execWrite n s = _
  rw [execWrite, taskOnly_task hctx, asRole_mayUse hrole]
  exact (withData_unfit (s := { s with roles := s.roles.give .txProducer s.port.agent }) hunfit).trans
    (refuseData_eq _)

end Sys2Proof.Machine

/-! The statements of 40_channel about requests in flight: a held request is taken up again, is never refused, and its
wake is not lost (R103, R121, R131, R226, R227). -/

namespace Sys2Proof.Machine

open Host (Outcome)

/-! ### A request in flight is taken up again -/

section InFlight

variable {s : State} {a : Agent} {k : Continuation} {later : List Choice} {i : Instr}

/-- The step of an agent with a request that is not held performs it from where it stands (R121). -/
theorem step_inFlight (hl : s.cfg.Legal) (hs : s.schedule = .agent a :: later) (hc : s.conts.get a = some k)
    (hw : k.waiting = none) : step s = perform (({ s with schedule := later } : State).reenter a k) := by
  have hport := State.atPort_inFlight (s := { s with schedule := later }) hc hw
  rw [step_agent hl hs, hport]

/-- The step of an agent whose held request finds its wake flag set performs it after its Resume (R103). -/
theorem step_awake {ch : Chan} (hl : s.cfg.Legal) (hs : s.schedule = .agent a :: later)
    (hc : s.conts.get a = some k) (hw : k.waiting = some ch) (hwake : (s.chan ch).wake = true) :
    step s = perform ((({ s with schedule := later } : State).resumed a ch).reenter a k) := by
  have hport := State.atPort_held (s := { s with schedule := later }) hc hw
  rw [if_pos (by cases ch <;> exact hwake)] at hport
  rw [step_agent hl hs, hport]

/-- The turn of an agent whose held request finds its wake flag clear passes (log 2). -/
theorem step_asleep {ch : Chan} (hl : s.cfg.Legal) (hs : s.schedule = .agent a :: later)
    (hc : s.conts.get a = some k) (hw : k.waiting = some ch) (hwake : (s.chan ch).wake = false) :
    step s = .next { s with schedule := later } := by
  have hport := State.atPort_held (s := { s with schedule := later }) hc hw
  rw [if_neg (by cases ch <;> exact Bool.eq_false_iff.1 hwake)] at hport
  rw [step_agent hl hs, hport]

theorem perform_reenter (hd : decode k.word = .ok i) : perform (s.reenter a k) = exec i (s.reenter a k) :=
  perform_of_decode (s := s.reenter a k) hd

/-- The resumption of a held request, written out: its words at the port, the Resume recorded, the flag cleared. -/
theorem State.resumed_reenter (s : State) (a : Agent) (ch : Chan) (k : Continuation) :
    (s.resumed a ch).reenter a k =
      ({ s with
        port := { agent := a, word := k.word, done := k.done, rest := k.rest }
        history := s.history ++ [.resume a ch] } : State).setChan ch { s.chan ch with wake := false } := by
  cases ch <;> rfl

end InFlight

/-- Settles O8: by the three turns of an agent with a request in flight, whose word decodes. -/
theorem heldRequestResumesOnItsWake : Obligations.HeldRequestResumesOnItsWake := by
  intro s a later k i hl hs hc hd
  refine ⟨fun ch hw hwake => ?_, fun ch hw hwake => step_asleep hl hs hc hw hwake, fun hw => ?_⟩
  · rw [step_awake hl hs hc hw hwake, perform_reenter hd, State.resumed_reenter]
    cases ch <;> rfl
  · rw [step_inFlight hl hs hc hw, perform_reenter hd]
    rfl

/-! ### What the invariant says of an unfinished request -/

/-- The role of the agent that can be held on the wake flag of a channel (R103, R227). -/
def waiterRole : Chan → Role
  | .rx => .rxConsumer
  | .tx => .txProducer

/-- `k` is the continuation of a request `i` that can hold, issued by `a` from task context in a role `a` holds;
held, it waits on the flag of that role, and a `WRITE` has its whole data list (R37, R75, R226, R227). -/
structure Unfinished (s : State) (a : Agent) (k : Continuation) (i : Instr) : Prop where
  decodes : decode k.word = .ok i
  canHold : i.canHold = true
  context : a.isInterrupt = false
  role : ∀ r, roleOf i = some r → s.roles.get r = some a
  waits : ∀ ch, k.waiting = some ch → roleOf i = some (waiterRole ch)
  data : ∀ n, i = .write n → k.done + k.rest.length = n

section Unfinished

variable {s t u : State} {a b : Agent} {k : Continuation} {i : Instr} {ch : Chan}

theorem State.Inv.unfinished (hs : s.Inv) (hk : s.conts.get a = some k) : ∃ i, Unfinished s a k i := by
  obtain ⟨-, hagents⟩ := s.inv_iff.1 hs
  have hcont := hagents a
  simp only [State.contOk, hk, Bool.and_eq_true, Bool.not_eq_true'] at hcont
  obtain ⟨htask, hcont⟩ := hcont
  split at hcont
  next hd =>
    simp only [Bool.and_eq_true, decide_eq_true_eq] at hcont
    obtain ⟨hw, hrole⟩ := hcont
    exact ⟨.popb, hd, rfl, htask, fun r hr => by cases hr; exact hrole,
      fun ch hch => by cases hw.symm.trans hch; rfl, nofun⟩
  next n hd =>
    simp only [Bool.and_eq_true, decide_eq_true_eq] at hcont
    obtain ⟨hw, hrole⟩ := hcont
    exact ⟨.read true n, hd, rfl, htask, fun r hr => by cases hr; exact hrole,
      fun ch hch => by cases hw.symm.trans hch; rfl, nofun⟩
  next n hd =>
    simp only [Bool.and_eq_true, decide_eq_true_eq] at hcont
    obtain ⟨⟨⟨hw, hrole⟩, hdata⟩, -⟩ := hcont
    refine ⟨.write n, hd, rfl, htask, fun r hr => by cases hr; exact hrole, fun ch hch => ?_,
      fun m hm => by cases hm; exact hdata⟩
    cases ch with
    | rx => exact absurd hch hw
    | tx => rfl
  next => cases hcont

/-- The agent that is held on a flag holds the role that goes with it, so it is the only one. -/
theorem State.Inv.role_of_heldOn (hs : s.Inv) (h : s.heldOn a ch) : s.roles.get (waiterRole ch) = some a := by
  obtain ⟨k, hk, hw⟩ := h
  obtain ⟨i, hi⟩ := hs.unfinished hk
  exact hi.role _ (hi.waits ch hw)

theorem State.Inv.heldOn_unique (hs : s.Inv) (ha : s.heldOn a ch) (hb : s.heldOn b ch) : a = b :=
  Option.some.inj ((hs.role_of_heldOn ha).symm.trans (hs.role_of_heldOn hb))

/-! ### A request that can hold and is admitted answers a next state -/

theorem writeStep_answers (n : Nat) (s : State) : ∃ t, writeStep n s = .next t := by
  unfold writeStep
  split
  · exact ⟨_, rfl⟩
  · split
    · split <;> exact ⟨_, rfl⟩
    · exact ⟨_, rfl⟩

theorem readStep_answers (wait : Bool) (n : Nat) (s : State) : ∃ t, readStep wait n s = .next t := by
  unfold readStep
  split
  · exact ⟨_, rfl⟩
  · split <;> exact ⟨_, rfl⟩

/-- The context, role and data checks are the only ones between a request that can hold and its next state. -/
theorem Admitted.answers (h : Admitted i s) (hi : i.canHold = true)
    (hdata : ∀ n, i = .write n → s.port.done + s.port.rest.length = n) : ∃ t, exec i s = .next t := by
  have htask := h.context hi
  cases i with
  | popb =>
    change ∃ t, execPopb s = .next t
    rw [execPopb, taskOnly_task htask, asRole_mayUse (h.role _ rfl)]
    split <;> exact ⟨_, rfl⟩
  | read wait n =>
    cases wait with
    | false => cases hi
    | true =>
      change ∃ t, taskOnly s (fun s => asRole .rxConsumer s (readStep true n)) = .next t
      rw [taskOnly_task htask, asRole_mayUse (h.role _ rfl)]
      exact readStep_answers true n _
  | write n =>
    change ∃ t, execWrite n s = .next t
    rw [execWrite, taskOnly_task htask, asRole_mayUse (h.role _ rfl)]
    rw [withData_fits (s := { s with roles := s.roles.give .txProducer s.port.agent }) (hdata n rfl)]
    exact writeStep_answers n _
  | push | popnb | free | avail | wspace | ravail | rxbyte | txready | rxlost | feed | wasupd | nbytes | ngood
  | nbad | conn | mem | adc | engspd | gndspd | oilp | wtemp | volt | afr | ses | run | dtc => cases hi

/-- An unfinished request answers a next state wherever it stands at the port again with its agent's roles. -/
theorem Unfinished.perform_answers (h : Unfinished s a k i) (hroles : u.roles = s.roles)
    (hport : u.port = { agent := a, word := k.word, done := k.done, rest := k.rest }) :
    ∃ t, perform u = .next t := by
  have hd : decode u.port.word = .ok i := by rw [hport]; exact h.decodes
  have hadm : Admitted i u := by
    refine ⟨fun _ => ?_, fun r hr => .inr ?_⟩
    · rw [hport]; exact h.context
    · rw [hroles, hport]; exact h.role r hr
  rw [perform_of_decode hd]
  refine hadm.answers h.canHold fun n hn => ?_
  rw [hport]
  exact h.data n hn

end Unfinished

/-- Settles O15: in each of the three turns of an agent with a request in flight, which passes its checks again. -/
theorem unfinishedRequestIsNeverRefused : Obligations.UnfinishedRequestIsNeverRefused := by
  intro s a later k hs hsched hk
  obtain ⟨hl, -⟩ := id hs
  obtain ⟨i, hi⟩ := hs.unfinished hk
  cases hw : k.waiting with
  | none =>
    rw [step_inFlight hl hsched hk hw]
    exact hi.perform_answers rfl rfl
  | some ch =>
    cases hwake : (s.chan ch).wake with
    | false => exact ⟨_, step_asleep hl hsched hk hw hwake⟩
    | true =>
      rw [step_awake hl hsched hk hw hwake]
      exact hi.perform_answers (by simp) rfl

/-! ### No wake is lost -/

/-- What a request held on the flag of a channel waits for: a byte in RX (R103), free space of `TX_HYST` in TX
(R131). -/
def State.wakeDue (s : State) : Chan → Prop
  | .rx => 0 < s.rx.count
  | .tx => s.cfg.txHyst ≤ s.freeOf .tx

/-- The wake flag of `ch` is set if it is due. -/
def State.WakeSetIfDue (s : State) (ch : Chan) : Prop := s.wakeDue ch → (s.chan ch).wake = true

theorem State.noLostWake_iff (s : State) : s.NoLostWake ↔ ∀ a ch, s.heldOn a ch → s.WakeSetIfDue ch := by
  refine ⟨fun h a ch => ?_, fun h a => ⟨h a .rx, h a .tx⟩⟩
  obtain ⟨hrx, htx⟩ := h a
  cases ch with
  | rx => exact hrx
  | tx => exact htx

section Wake

variable {i : Instr} {s t u : State} {a b : Agent} {ch : Chan}

theorem State.WakeSetIfDue.congr (h : s.WakeSetIfDue ch) (hcfg : t.cfg = s.cfg) (hrx : t.rx = s.rx)
    (htx : t.tx = s.tx) : t.WakeSetIfDue ch := by
  cases ch with
  | rx =>
    change 0 < t.rx.count → t.rx.wake = true
    rw [hrx]
    exact h
  | tx =>
    change t.cfg.txHyst ≤ t.cfg.cTx - t.tx.count → t.tx.wake = true
    rw [hcfg, htx]
    exact h

@[simp] theorem State.take_rx_rx_count (s : State) (n : Nat) : (s.take .rx n).2.rx.count = s.rx.count - n :=
  Channel.getN_count _ _ n _

@[simp] theorem State.take_tx_rx (s : State) (n : Nat) : (s.take .tx n).2.rx = s.rx := rfl

/-- Before its response a request that puts the first byte into RX sets the flag (R24). -/
theorem Effect.sets_rx_wake {r : Word} {d : List Byte} (h : Effect i s u r d) (hbefore : s.rx.count = 0)
    (hafter : 0 < u.rx.count) : u.rx.wake = true := by
  cases h with
  | @push ch =>
    cases ch with
    | rx => rfl
    | tx => exact absurd hafter (by simp [State.putByte, hbefore])
  | rxbyte => rfl
  | @popnb ch =>
    cases ch with
    | rx | tx => exact absurd hafter (by simp [hbefore])
  | popb | read | txready | feed => exact absurd hafter (by simp [hbefore])
  | query | pushFull | written | lastChunk | readEmpty | rxbyteLost | txreadyEmpty | wasupd =>
    exact absurd hafter hbefore.not_gt

/-- The removal of `k` of the bytes of TX sets the flag if it takes the free space to `TX_HYST` (R131). -/
theorem txHyst_sets_wake {k : Nat} (hcount : s.tx.count ≤ s.cfg.cTx) (hk : k ≤ s.tx.count)
    (hbefore : s.freeOf .tx < s.cfg.txHyst)
    (hafter : s.cfg.txHyst ≤ ((s.take .tx k).2.txHyst (s.freeOf .tx) (s.freeOf .tx + k)).freeOf .tx) :
    ((s.take .tx k).2.txHyst (s.freeOf .tx) (s.freeOf .tx + k)).tx.wake = true := by
  have hfree : s.freeOf .tx = s.cfg.cTx - s.tx.count := rfl
  have hfree' : s.cfg.txHyst ≤ s.cfg.cTx - (s.tx.count - k) := by simpa [State.freeOf] using hafter
  have hreached : s.cfg.txHyst ≤ s.freeOf .tx + k := by omega
  rw [State.txHyst_tx, Channel.withWake_wake, State.take_cfg]
  simp [hbefore, hreached]

/-- A chunk of a `WRITE` leaves no more free space in TX than there was (R121). -/
theorem State.BlockOk.freeOf_writeChunk_le (hs : s.BlockOk) {n : Nat}
    (hdata : s.port.done + s.port.rest.length = n) : (s.writeChunk n).freeOf .tx ≤ s.freeOf .tx := by
  obtain ⟨-, -, hcount, -⟩ := State.writeChunk_spec s n (hs.chan .tx) hdata
  change s.cfg.cTx - (s.writeChunk n).tx.count ≤ s.cfg.cTx - s.tx.count
  omega

/-- Before its response a request that takes the free space of TX to `TX_HYST` sets the flag (R131). -/
theorem Effect.sets_tx_wake {r : Word} {d : List Byte} (h : Effect i s u r d) (hs : s.BlockOk)
    (hbefore : s.freeOf .tx < s.cfg.txHyst) (hafter : s.cfg.txHyst ≤ u.freeOf .tx) : u.tx.wake = true := by
  have hcount : s.tx.count ≤ s.cfg.cTx := (hs.chan .tx).1
  have hfree : s.freeOf .tx = s.cfg.cTx - s.tx.count := rfl
  cases h with
  | @popnb ch n k _ hk =>
    cases ch with
    | rx => exact absurd hafter hbefore.not_ge
    | tx => exact txHyst_sets_wake hcount (hk ▸ Nat.min_le_left _ _) hbefore hafter
  | txready hc => exact txHyst_sets_wake hcount hc hbefore hafter
  | @push ch =>
    cases ch with
    | rx => exact absurd hafter hbefore.not_ge
    | tx =>
      change s.cfg.txHyst ≤ s.cfg.cTx - (s.tx.count + 1) at hafter
      omega
  | lastChunk hdata => exact absurd (hafter.trans (hs.freeOf_writeChunk_le hdata)) hbefore.not_ge
  | feed =>
    simp only [State.freeOf, feedArm_cfg, State.chan_tx, feedArm_tx] at hafter
    exact absurd hafter hbefore.not_ge
  | query | pushFull | popb | written | read | readEmpty | rxbyte | rxbyteLost | txreadyEmpty | wasupd =>
    exact absurd hafter hbefore.not_ge

/-- Before its response no request loses the wake of a channel: it clears no flag, and sets one it makes due. -/
theorem Effect.wakeSetIfDue {r : Word} {d : List Byte} (h : Effect i s u r d) (hs : s.BlockOk)
    (hwake : s.WakeSetIfDue ch) : u.WakeSetIfDue ch := by
  intro hdue
  cases ch with
  | rx =>
    rcases h.rxWakeRule with hsame | ⟨hset, -⟩
    · rcases Nat.eq_zero_or_pos s.rx.count with hempty | hbyte
      · exact h.sets_rx_wake hempty hdue
      · exact hsame.trans (hwake hbyte)
    · exact hset
  | tx =>
    obtain ⟨hcfg, -⟩ := h.frame
    have hreached : s.cfg.txHyst ≤ u.freeOf .tx := by
      rw [← hcfg]
      exact hdue
    rcases h.txWakeRule (hs.chan .tx).1 with hsame | ⟨hset, -⟩
    · rcases Nat.lt_or_ge (s.freeOf .tx) s.cfg.txHyst with hbelow | hfree
      · exact h.sets_tx_wake hs hbelow hreached
      · exact hsame.trans (hwake hfree)
    · exact hset

/-- A request's step loses no wake of a channel. -/
theorem Performed.wakeSetIfDue (h : Performed i s t) (hs : s.BlockOk) (hwake : s.WakeSetIfDue ch) :
    t.WakeSetIfDue ch := by
  cases h with
  | completes h => exact (h.wakeSetIfDue hs hwake).congr rfl rfl rfl
  | holds => exact hwake.congr rfl rfl rfl
  | @staysInFlight n _ hdata =>
    refine State.WakeSetIfDue.congr (s := s.writeChunk n) ?_ rfl rfl rfl
    cases ch with
    | rx => exact hwake
    | tx =>
      intro hdue
      rw [State.chan_tx, State.writeChunk_tx_wake]
      exact hwake (le_trans hdue (hs.freeOf_writeChunk_le hdata))

/-- What a request waits for has not come when it is held: RX is empty, or TX is full and `TX_HYST` is not 0. -/
theorem Waits.not_wakeDue (h : Waits i s ch) (hl : s.cfg.Legal) : ¬ s.wakeDue ch := by
  obtain ⟨-, -, hhyst, -⟩ := hl
  cases h with
  | popb hempty => exact hempty
  | read hempty => exact hempty
  | write _ _ hfull =>
    intro hdue
    have hreached : s.cfg.txHyst ≤ s.freeOf .tx := hdue
    omega

/-- A request held at the end of its own step is held on a flag that is not due. -/
theorem Performed.wakeSetIfDue_own (h : Performed i s t) (hl : s.cfg.Legal)
    (hheld : t.heldOn s.port.agent ch) : t.WakeSetIfDue ch := by
  obtain ⟨k, hk, hw⟩ := hheld
  cases h with
  | completes h =>
    obtain ⟨-, -, -, hagent, -⟩ := h.frame
    rw [State.answer_conts, hagent, PerAgent.get_set_same] at hk
    cases hk
  | @holds _ _ ch' hwaits =>
    rw [State.emit_conts, State.suspend_conts, PerAgent.get_set_same] at hk
    cases hk
    cases hw
    exact State.WakeSetIfDue.congr (s := s) (fun hdue => absurd hdue (hwaits.not_wakeDue hl)) rfl rfl rfl
  | @staysInFlight n =>
    have hagent : (s.writeChunk n).port.agent = s.port.agent := rfl
    rw [State.suspend_conts, hagent, PerAgent.get_set_same] at hk
    cases hk
    cases hw

/-- Taking the request of `a` to the port clears no flag but that `a` is held on, on which no other agent is. -/
theorem State.Inv.wakeSetIfDue_atPort (hs : s.Inv) (hu : s.atPort a = some u) (hb : b ≠ a)
    (hheld : s.heldOn b ch) (hwake : s.WakeSetIfDue ch) : u.WakeSetIfDue ch := by
  rcases State.atPort_cases hu with ⟨q, qs, -, rfl⟩ | ⟨k, hk, ⟨-, rfl⟩ | ⟨ch', hw, -, rfl⟩⟩
  · exact hwake.congr rfl rfl rfl
  · exact hwake.congr rfl rfl rfl
  · have hne : ch ≠ ch' := by
      rintro rfl
      exact hb (hs.heldOn_unique hheld ⟨k, hk, hw⟩)
    cases ch <;> cases ch'
    case rx.rx => exact absurd rfl hne
    case tx.tx => exact absurd rfl hne
    case rx.tx => exact hwake
    case tx.rx => exact hwake

/-- The turn of agent `a` loses no wake, if what it performs loses none of the state at the port and leaves `a` held
on no flag that is due and not set. -/
theorem State.Inv.noLostWake_turn (hs : s.Inv) (hwake : s.NoLostWake) (hu : s.atPort a = some u)
    (hothers : ∀ b, b ≠ a → t.conts.get b = u.conts.get b)
    (hkept : ∀ ch, u.WakeSetIfDue ch → t.WakeSetIfDue ch)
    (hown : ∀ ch, t.heldOn a ch → t.WakeSetIfDue ch) : t.NoLostWake := by
  obtain ⟨-, hconts, -, -⟩ := State.atPort_frame hu
  refine t.noLostWake_iff.2 fun b ch hheld => ?_
  by_cases hb : b = a
  · subst hb
    exact hown ch hheld
  · have hbefore : s.heldOn b ch := by
      obtain ⟨k, hk, hw⟩ := hheld
      exact ⟨k, by rw [← hconts, ← hothers b hb, hk], hw⟩
    exact hkept ch (hs.wakeSetIfDue_atPort hu hb hbefore (s.noLostWake_iff.1 hwake b ch hbefore))

theorem exec_noLostWake (hs : s.Inv) (hwake : s.NoLostWake) (hu : s.atPort a = some u)
    (h : exec i u = .next t) : t.NoLostWake := by
  obtain ⟨-, -, -, rfl⟩ := State.atPort_frame hu
  obtain ⟨-, hp⟩ := exec_next h
  obtain ⟨-, -, hothers⟩ := hp.frame
  obtain ⟨hblock, -⟩ := u.inv_iff.1 (hs.atPort hu)
  have hclaim : (u.claim (roleOf i)).BlockOk := hblock
  obtain ⟨hl, -⟩ := id hblock
  exact hs.noLostWake_turn hwake hu hothers
    (fun ch hch => hp.wakeSetIfDue hclaim (hch.congr rfl rfl rfl)) fun ch => hp.wakeSetIfDue_own hl

theorem illegal_noLostWake (hs : s.Inv) (hwake : s.NoLostWake) (hu : s.atPort a = some u) :
    ((u.meets (.illegalCommand u.port.word)).answer .illegal 0 []).NoLostWake := by
  obtain ⟨-, -, -, rfl⟩ := State.atPort_frame hu
  refine hs.noLostWake_turn hwake hu (fun b hb => PerAgent.get_set_other _ _ hb)
    (fun ch hch => hch.congr rfl rfl rfl) fun ch => ?_
  rintro ⟨k, hk, -⟩
  exact absurd ((PerAgent.get_set_same _ _ _).symm.trans hk) nofun

theorem State.noLostWake_of_idle (h : s.conts = PerAgent.all none) : s.NoLostWake := by
  refine s.noLostWake_iff.2 fun a ch ⟨k, hk, _⟩ => ?_
  rw [h, PerAgent.get_all] at hk
  cases hk

end Wake

/-- Settles O17: at reset no request is held, and every turn of a step loses no wake. -/
theorem noWakeIsLost : Obligations.NoWakeIsLost := by
  refine ⟨fun _ => State.noLostWake_of_idle rfl, fun s t hs hwake h => ?_⟩
  obtain ⟨-, ⟨-, rfl⟩ | ⟨later, -, rfl⟩ | ⟨a, later, -, hturn⟩⟩ := step_cases h
  · exact hwake
  · exact State.noLostWake_of_idle rfl
  have hrun : ({ s with schedule := later } : State).Inv := hs
  have hrunWake : ({ s with schedule := later } : State).NoLostWake := hwake
  rcases hturn with ⟨-, rfl⟩ | ⟨u, hu, ⟨e, -, rfl⟩ | ⟨i, -, hi⟩⟩
  · exact hwake
  · exact illegal_noLostWake hrun hrunWake hu
  · exact exec_noLostWake hrun hrunWake hu hi

end Sys2Proof.Machine

/-! The statements of 40_channel about the requests of the Byte Channel (R102, R104 to R108), each from the state its
checks pass in to the state its step leaves. -/

namespace Sys2Proof.Machine

open Host (Outcome)

/-! ### The claim of a role and the update of a channel -/

section Claim

variable {s : State} {r : Role}

/-- The role check, passed, with the claim named (R227). -/
theorem asRole_claim {run : State → Outcome State Fault Refusal} (h : s.mayUse r) :
    asRole r s run = run (s.claim (some r)) := asRole_mayUse h

@[simp] theorem State.claim_cfg (s : State) (r : Option Role) : (s.claim r).cfg = s.cfg := rfl

@[simp] theorem State.claim_rx (s : State) (r : Option Role) : (s.claim r).rx = s.rx := rfl

@[simp] theorem State.claim_chan (s : State) (r : Option Role) (ch : Chan) : (s.claim r).chan ch = s.chan ch := by
  cases ch <;> rfl

@[simp] theorem State.claim_freeOf (s : State) (r : Option Role) (ch : Chan) :
    (s.claim r).freeOf ch = s.freeOf ch := by cases ch <;> rfl

@[simp] theorem State.claim_take_bytes (s : State) (r : Option Role) (ch : Chan) (n : Nat) :
    ((s.claim r).take ch n).1 = (s.take ch n).1 := by cases ch <;> rfl

@[simp] theorem State.claim_take_chan (s : State) (r : Option Role) (ch : Chan) (n : Nat) :
    ((s.claim r).take ch n).2.chan ch = (s.take ch n).2.chan ch := by cases ch <;> rfl

/-- An answer from a claimed role with one channel updated, in the vocabulary of the statements. -/
theorem State.answer_setChan_claim (s : State) (r : Role) (ch : Chan) (c : Channel) (result : Word)
    (data : List Byte) :
    ((s.claim (some r)).setChan ch c).answer .ok result data =
      (s.completed (some r) [] result data).setChan ch c := by
  rw [← State.answer_give_eq_completed]
  cases ch <;> rfl

@[simp] theorem State.completed_chan (s : State) (r : Option Role) (evs : List Event) (result : Word)
    (data : List Byte) (ch : Chan) : (s.completed r evs result data).chan ch = s.chan ch := by cases ch <;> rfl

end Claim

/-! ### `PUSH` (R102) -/

section Push

variable {ch : Chan} {b : Byte} {s : State}

/-- The channel a `PUSH` with room leaves: the byte appended and, on RX, the wake set (R24, R102). -/
def Channel.pushed (ch : Chan) (cap : Nat) (c : Channel) (b : Byte) : Channel :=
  (c.put cap b).withWake (if ch = .rx then true else c.wake)

theorem State.putByte_signalWrite (s : State) (ch : Chan) (b : Byte) :
    (s.putByte ch b).signalWrite ch = s.setChan ch ((s.chan ch).pushed ch (Config.cap s.cfg ch) b) := by
  cases ch <;> rfl

theorem exec_push_room (hmay : s.mayUse (producerRole ch)) (hroom : (s.chan ch).count < Config.cap s.cfg ch) :
    exec (.push ch b) s = .next ((s.completed (some (producerRole ch)) [] 1 []).setChan ch
      ((s.chan ch).pushed ch (Config.cap s.cfg ch) b)) := by
  change execPush ch b s = _
  rw [execPush, asRole_claim hmay, if_pos (by simpa using hroom), State.putByte_signalWrite, respond_eq,
    State.answer_setChan_claim]
  simp

theorem exec_push_full (hmay : s.mayUse (producerRole ch)) (hfull : (s.chan ch).count = Config.cap s.cfg ch) :
    exec (.push ch b) s = .next (s.completed (some (producerRole ch)) [.condition (.pushFull ch)] 0 []) := by
  change execPush ch b s = _
  rw [execPush, asRole_claim hmay, if_neg (by simp [hfull]), respond_eq]
  simp [State.answer, State.meets, State.emit, State.completed, State.claim]

end Push

/-- Settles O26: by the two branches of `PUSH`. -/
theorem pushAppendsOrReportsFull : Obligations.PushAppendsOrReportsFull := by
  intro ch b s hok hmay
  refine ⟨fun hroom => ⟨_, exec_push_room hmay hroom, ?_⟩, exec_push_full hmay⟩
  rw [State.chan_setChan]
  exact ⟨Channel.put_contents b hok hroom, rfl, rfl, rfl, fun a => Memory.read?_write _ _ _ _, rfl, rfl⟩

/-! ### `POPB` (R104) and `POPNB` (R105) -/

section Pop

variable {ch : Chan} {n : Nat} {s : State}

theorem exec_popb_byte (hmay : s.mayUse .rxConsumer) (htask : s.port.agent.isInterrupt = false)
    (hc : 0 < s.rx.count) :
    exec .popb s = .next ((s.completed (some .rxConsumer) []
      ((s.rx.head (Config.freeByte s.draws)).setWidth 32) [s.rx.head (Config.freeByte s.draws)]).setChan .rx
        (s.take .rx 1).2.rx) := by
  change execPopb s = _
  rw [execPopb, taskOnly_task htask, asRole_claim hmay, if_pos (by simpa using hc)]
  dsimp only
  rw [State.take_eq, respond_eq, State.answer_setChan_claim]
  rfl

theorem exec_popb_empty (hmay : s.mayUse .rxConsumer) (htask : s.port.agent.isInterrupt = false)
    (hc : s.rx.count = 0) : exec .popb s = .next (s.heldAt .rxConsumer .rx) := by
  change execPopb s = _
  rw [execPopb, taskOnly_task htask, asRole_claim hmay, if_neg (by simp [hc]), holdOn_eq]
  rfl

/-- The removal of the bytes of a channel with its hysteresis rule, as the update of that channel (R105, R131). -/
theorem State.take_signalRemoval (s : State) (ch : Chan) (k f0 f1 : Nat) :
    (s.take ch k).2.signalRemoval ch f0 f1 = s.setChan ch (((s.take ch k).2.chan ch).withWake
      ((s.chan ch).wake || decide (ch = .tx ∧ f0 < s.cfg.txHyst ∧ s.cfg.txHyst ≤ f1))) := by
  have hwake : ((s.take ch k).2.chan ch).wake = (s.chan ch).wake := by simp [State.take]
  rw [← hwake]
  cases ch with
  | rx =>
    simp only [reduceCtorEq, false_and, decide_false, Bool.or_false]
    rfl
  | tx =>
    rw [State.signalRemoval_onTx, State.txHyst_eq, State.txHyst_tx, State.take_cfg]
    simp only [true_and]
    rfl

theorem exec_popnb (hmay : s.mayUse (consumerRole ch)) {k : Nat} (hk : k = min (s.chan ch).count n) :
    exec (.popnb ch n) s = .next ((s.completed (some (consumerRole ch)) [] (BitVec.ofNat 32 k)
      (s.take ch k).1).setChan ch (((s.take ch k).2.chan ch).withWake ((s.chan ch).wake ||
        decide (ch = .tx ∧ s.freeOf ch < s.cfg.txHyst ∧ s.cfg.txHyst ≤ s.freeOf ch + k)))) := by
  subst hk
  change execPopnb ch n s = _
  rw [execPopnb, asRole_claim hmay]
  dsimp only
  rw [State.take_signalRemoval, respond_eq, State.answer_setChan_claim]
  simp [resultOf]

end Pop

/-- Settles O27: by the two branches of `POPB`, with what removing one byte leaves. -/
theorem popbRemovesTheOldestOrHolds : Obligations.PopbRemovesTheOldestOrHolds := by
  intro s hok hmay htask
  refine ⟨fun hc => ⟨s.rx.head (Config.freeByte s.draws), _, exec_popb_byte hmay htask hc, ?_⟩,
    exec_popb_empty hmay htask⟩
  obtain ⟨-, hcontents, -, hcount, hrd, hwr, hwake, hbuf⟩ := State.take_spec s .rx 1 hok hc
  rw [State.setChan_rx_rx]
  refine ⟨?_, hcount, hrd, hwr, hbuf, hwake, rfl⟩
  rw [show (s.take .rx 1).2.rx.contents s.cfg.cRx = (s.rx.contents s.cfg.cRx).drop 1 from hcontents,
    List.drop_one]
  exact Channel.head_eq _ hok hc

/-- Settles O28: by what removing the bytes leaves, and the hysteresis rule. -/
theorem popnbRemovesUpToN : Obligations.PopnbRemovesUpToN := by
  intro ch n s hok hmay
  obtain ⟨hbytes, hcontents, -, hcount, hrd, hwr, -, hbuf⟩ :=
    State.take_spec s ch (min (s.chan ch).count n) hok (Nat.min_le_left _ _)
  refine ⟨_, _, exec_popnb hmay rfl, hbytes, ?_⟩
  rw [State.chan_setChan]
  refine ⟨hcontents, hcount, hrd, hwr, hbuf, ?_, rfl⟩
  cases ch <;> simp [State.freeOf]

/-! ### The queries (R106, R107, R124, R125, R129) -/

/-- Settles O29: each query only answers. -/
theorem channelQueriesAnswer : Obligations.ChannelQueriesAnswer := fun s =>
  ⟨fun _ => respond_completed s _ [], fun _ => respond_completed s _ [], respond_completed s _ [],
    respond_completed s _ [], respond_completed s _ []⟩

theorem Config.Legal.cap_le {cfg : Config} (hl : cfg.Legal) (ch : Chan) : Config.cap cfg ch ≤ 65535 := by
  obtain ⟨-, hcRx, -, -, hcTx, -⟩ := hl
  cases ch with
  | rx => exact hcRx
  | tx => exact hcTx

/-- Settles O30: count and free space sum to the capacity, which 32 bits hold. -/
theorem availAndFreeSumToCapacity : Obligations.AvailAndFreeSumToCapacity := by
  intro ch s hl hok
  obtain ⟨hfree, havail, -⟩ := channelQueriesAnswer s
  have hcap := Config.Legal.cap_le hl ch
  have hcount : (s.chan ch).count ≤ Config.cap s.cfg ch := hok.1
  refine ⟨_, _, _, _, havail ch, hfree ch, List.getLast?_concat, List.getLast?_concat, ?_⟩
  simp only [BitVec.toNat_ofNat]
  omega

/-! ### A run of `PUSH` requests (R108) -/

/-- `t` is where the accepted `PUSH` of each byte of `bs` leads from `s`, the agent at the port the same. -/
structure PushedAll (ch : Chan) (bs : List Byte) (s t : State) : Prop where
  cfg : t.cfg = s.cfg
  port : t.port = s.port
  mayUse : t.mayUse (producerRole ch)
  count : (t.chan ch).count = (s.chan ch).count + bs.length
  contents : (t.chan ch).contents (Config.cap s.cfg ch) =
    (s.chan ch).contents (Config.cap s.cfg ch) ++ bs.map some
  history : t.history = s.history ++ bs.map fun _ =>
    Event.response s.port.agent s.port.word { status := .ok, result := 1, data := [] }

section Run

variable {ch : Chan} {b : Byte} {bs : List Byte} {s t u : State}

theorem PushedAll.nil (hmay : s.mayUse (producerRole ch)) : PushedAll ch [] s s :=
  ⟨rfl, rfl, hmay, rfl, by simp, by simp⟩

/-- The state after one accepted `PUSH` (R102). -/
theorem pushedAll_one (hok : (s.chan ch).Ok (Config.cap s.cfg ch))
    (hroom : (s.chan ch).count < Config.cap s.cfg ch) :
    PushedAll ch [b] s ((s.completed (some (producerRole ch)) [] 1 []).setChan ch
      ((s.chan ch).pushed ch (Config.cap s.cfg ch) b)) where
  cfg := State.setChan_cfg _ _ _
  port := State.setChan_port _ _ _
  mayUse := .inr (by rw [State.setChan_roles, State.setChan_port]; exact Roles.get_give_same _ _ _)
  count := by rw [State.chan_setChan]; rfl
  contents := by rw [State.chan_setChan]; exact Channel.put_contents b hok hroom
  history := by rw [State.setChan_history]; simp [State.completed]

theorem PushedAll.cons (h : PushedAll ch [b] s t) (h' : PushedAll ch bs t u) : PushedAll ch (b :: bs) s u where
  cfg := h'.cfg.trans h.cfg
  port := h'.port.trans h.port
  mayUse := h'.mayUse
  count := by rw [h'.count, h.count, List.length_singleton, List.length_cons]; omega
  contents := by
    have hcontents := h'.contents
    rw [h.cfg, h.contents] at hcontents
    simpa using hcontents
  history := by rw [h'.history, h.history, h.port]; simp

/-- As many `PUSH` requests as there is room for are all accepted (R108). -/
theorem execAll_push (bs : List Byte) {s : State} (hok : (s.chan ch).Ok (Config.cap s.cfg ch))
    (hmay : s.mayUse (producerRole ch)) (hroom : (s.chan ch).count + bs.length ≤ Config.cap s.cfg ch) :
    ∃ t, execAll (bs.map (.push ch)) s = .next t ∧ PushedAll ch bs s t := by
  induction bs generalizing s with
  | nil => exact ⟨s, rfl, .nil hmay⟩
  | cons b bs ih =>
    rw [List.length_cons] at hroom
    have hone : (s.chan ch).count < Config.cap s.cfg ch := by omega
    have hfirst := pushedAll_one (b := b) hok hone
    obtain ⟨t, hrun, hrest⟩ := ih
      (by rw [State.setChan_cfg, State.chan_setChan]; exact Channel.withWake_ok _ (Channel.put_ok b hok hone))
      hfirst.mayUse (by rw [hfirst.count, hfirst.cfg, List.length_singleton]; omega)
    refine ⟨t, ?_, hfirst.cons hrest⟩
    rw [List.map_cons, execAll, exec_push_room hmay hone]
    exact hrun

end Run

/-- Settles O31: the first pushes fill the channel and the last one finds it full. -/
theorem pushesFillAChannelOnce : Obligations.PushesFillAChannelOnce := by
  intro ch s bs b hok hempty hmay hlen
  obtain ⟨t, hrun, ht⟩ := execAll_push bs hok hmay (by rw [hempty, hlen, Nat.zero_add])
  have hfull : (t.chan ch).count = Config.cap t.cfg ch := by rw [ht.count, ht.cfg, hempty, hlen, Nat.zero_add]
  have hcontents : (t.chan ch).contents (Config.cap s.cfg ch) = bs.map some := by
    rw [ht.contents, Channel.contents, hempty]
    rfl
  refine ⟨t, _, hrun, exec_push_full ht.mayUse hfull, ht.history, ?_, hcontents, ?_⟩
  · simp [State.completed, ht.port]
  · rw [State.completed_chan, hcontents]

end Sys2Proof.Machine

/-! The statements of 41_port about the requests of the Serial Port Adapter (R121, R123, R126, R128, R130 to R132): each
request from the state its checks pass in, then the run that wakes a held `WRITE`. -/

namespace Sys2Proof.Machine

open Host (Outcome)

@[simp] theorem State.claim_tx (s : State) (r : Option Role) : (s.claim r).tx = s.tx := rfl

@[simp] theorem State.claim_port (s : State) (r : Option Role) : (s.claim r).port = s.port := rfl

/-! ### `READ` (R123) -/

section Read

variable {wait : Bool} {n : Nat} {s : State}

/-- Both forms of `READ` once their checks have passed: the context check is that of the waiting form (R226). -/
theorem exec_read_eq (hmay : s.mayUse .rxConsumer) (htask : wait = true → s.port.agent.isInterrupt = false) :
    exec (.read wait n) s = readStep wait n (s.claim (some .rxConsumer)) := by
  cases wait with
  | true =>
    change taskOnly s (fun s => asRole .rxConsumer s (readStep true n)) = _
    rw [taskOnly_task (htask rfl), asRole_claim hmay]
  | false => exact asRole_claim hmay

theorem exec_read_bytes (hmay : s.mayUse .rxConsumer)
    (htask : wait = true → s.port.agent.isInterrupt = false) (hc : 1 ≤ s.rx.count) {k : Nat}
    (hk : k = min s.rx.count n) :
    exec (.read wait n) s = .next ((s.completed (some .rxConsumer) [] (BitVec.ofNat 32 k)
      (s.take .rx k).1).setChan .rx (s.take .rx k).2.rx) := by
  subst hk
  rw [exec_read_eq hmay htask, readStep, if_pos (by simpa using hc)]
  dsimp only
  rw [State.take_eq, respond_eq, State.answer_setChan_claim]
  rfl

/-- `nowait` on an empty RX. -/
theorem exec_read_empty (hmay : s.mayUse .rxConsumer) (hc : s.rx.count = 0) :
    exec (.read false n) s = .next (s.completed (some .rxConsumer) [] 0 []) := by
  rw [exec_read_eq (wait := false) hmay nofun, readStep, if_neg (by simp [hc]), if_pos rfl, respond_eq]
  exact congrArg Outcome.next (State.answer_give_eq_completed s .rxConsumer 0 [])

theorem exec_read_holds (hmay : s.mayUse .rxConsumer) (htask : s.port.agent.isInterrupt = false)
    (hc : s.rx.count = 0) : exec (.read true n) s = .next (s.heldAt .rxConsumer .rx) := by
  rw [exec_read_eq hmay fun _ => htask, readStep, if_neg (by simp [hc]), if_neg (by simp), holdOn_eq]
  rfl

end Read

/-- Settles O33: by the three branches of `READ`, with what removing the bytes leaves. -/
theorem readTakesWhatIsThere : Obligations.ReadTakesWhatIsThere := by
  intro wait n s hok hmay htask
  refine ⟨fun hc => ?_, fun hc hwait => ?_, fun hc hwait => ?_⟩
  · obtain ⟨hbytes, hcontents, -, hcount, hrd, hwr, hwake, hbuf⟩ :=
      State.take_spec s .rx (min s.rx.count n) hok (Nat.min_le_left _ _)
    exact ⟨_, _, exec_read_bytes hmay htask hc rfl, hbytes, hcontents, hcount, hrd, hwr, hbuf, hwake, rfl⟩
  · subst hwait
    exact exec_read_empty hmay hc
  · subst hwait
    exact exec_read_holds hmay (htask rfl) hc

/-! ### `RXBYTE` (R126, R130) -/

section Rxbyte

variable {b : Byte} {s : State}

/-- With room in RX, `RXBYTE` is `PUSH` on RX: it appends its byte in the same role and sets the wake (R102, R126). -/
theorem exec_rxbyte_room (hmay : s.mayUse .rxProducer) (hroom : s.rx.count < s.cfg.cRx) :
    exec (.rxbyte b) s = exec (.push .rx b) s := by
  rw [exec_push_room (ch := .rx) hmay hroom]
  change execRxbyte b s = _
  rw [execRxbyte, asRole_claim hmay, if_pos (by simpa using hroom), State.putByte_signalWrite, respond_eq,
    State.answer_setChan_claim]
  rfl

theorem exec_rxbyte_full (hmay : s.mayUse .rxProducer) (hfull : s.rx.count = s.cfg.cRx) :
    exec (.rxbyte b) s = .next { s.completed (some .rxProducer) [.condition (.rxOverflow b)] 0 [] with
      rxLost := (s.rxLost + 1) % 2 ^ s.cfg.cntW } := by
  change execRxbyte b s = _
  rw [execRxbyte, asRole_claim hmay, if_neg (by simp [hfull]), respond_eq]
  rfl

end Rxbyte

/-- Settles O34: what a `PUSH` on RX stores with room, and the drop of the byte without. -/
theorem rxbyteStoresOrDropsTheNewest : Obligations.RxbyteStoresOrDropsTheNewest := by
  intro b s hok hmay
  refine ⟨fun hroom => ?_, exec_rxbyte_full hmay⟩
  obtain ⟨hpush, -⟩ := pushAppendsOrReportsFull .rx b s hok hmay
  rw [exec_rxbyte_room hmay hroom]
  exact hpush hroom

/-! ### `WRITE` (R121) -/

/-- Putting bytes changes no cell but those from the write cursor on (R100, R121). -/
theorem Channel.putAll_frame {cap : Nat} (bs : List Byte) {c : Channel} (hwr : c.wr < cap) {a : Nat}
    (ha : ∀ j < bs.length, a ≠ (c.wr + j) % cap) :
    Memory.read? (Channel.putAll cap c bs).buf a = Memory.read? c.buf a := by
  induction bs generalizing c with
  | nil => rfl
  | cons b bs ih =>
    have hput : (c.put cap b).wr = (c.wr + 1) % cap := rfl
    have hfirst : a ≠ c.wr := by
      have hzero := ha 0 (Nat.zero_lt_succ _)
      rwa [Nat.add_zero, Nat.mod_eq_of_lt hwr] at hzero
    have hrest : ∀ j < bs.length, a ≠ ((c.put cap b).wr + j) % cap := by
      intro j hj
      rw [hput, Nat.mod_add_mod, Nat.add_assoc, Nat.add_comm 1 j]
      exact ha (j + 1) (Nat.succ_lt_succ hj)
    calc Memory.read? (Channel.putAll cap (c.put cap b) bs).buf a
        = Memory.read? (c.put cap b).buf a := ih (hput ▸ Nat.mod_lt _ (Nat.zero_lt_of_lt hwr)) hrest
      _ = Memory.read? c.buf a := (Memory.read?_write _ _ _ _).trans (if_neg hfirst)

section Write

variable {n : Nat} {s : State}

/-- The cursors a chunk of a `WRITE` leaves, and the cells it does not reach (R121). -/
theorem State.writeChunk_cursors (h : s.tx.Ok s.cfg.cTx) (hdata : s.port.done + s.port.rest.length = n) {k : Nat}
    (hk : k = min (s.freeOf .tx) (n - s.port.done)) :
    (s.writeChunk n).tx.rd = s.tx.rd ∧ (s.writeChunk n).tx.wr = (s.tx.wr + k) % s.cfg.cTx ∧
      ∀ a, (∀ j < k, a ≠ (s.tx.wr + j) % s.cfg.cTx) →
        Memory.read? (s.writeChunk n).tx.buf a = Memory.read? s.tx.buf a := by
  have hfree : s.freeOf .tx = s.cfg.cTx - s.tx.count := rfl
  have htx : (s.writeChunk n).tx = s.tx.putAll s.cfg.cTx (s.port.rest.take k) := by rw [hk]; rfl
  have hlen : (s.port.rest.take k).length = k := by rw [List.length_take]; omega
  obtain ⟨hcount, hrd, hwr, -⟩ := id h
  obtain ⟨⟨-, -, hwr', -⟩, -, hcount', hrd', -⟩ :=
    Channel.putAll_spec (s.port.rest.take k) h (by rw [hlen]; omega)
  rw [htx]
  have hwr_lt : s.tx.wr < s.cfg.cTx := hwr ▸ Nat.mod_lt _ (Nat.zero_lt_of_lt hrd)
  refine ⟨hrd', ?_, fun a ha => Channel.putAll_frame _ hwr_lt (by rwa [hlen])⟩
  rw [hwr', hrd', hcount', hlen, hwr, Nat.mod_add_mod, Nat.add_assoc]

/-- `WRITE` once its three checks have passed (R75, R226, R227). -/
theorem exec_write_eq (hmay : s.mayUse .txProducer) (htask : s.port.agent.isInterrupt = false)
    (hdata : s.port.done + s.port.rest.length = n) :
    exec (.write n) s = writeStep n (s.claim (some .txProducer)) := by
  change execWrite n s = _
  rw [execWrite, taskOnly_task htask, asRole_claim hmay]
  exact withData_fits (s := s.claim (some .txProducer)) hdata

theorem exec_write_done (hmay : s.mayUse .txProducer) (htask : s.port.agent.isInterrupt = false)
    (hdata : s.port.done + s.port.rest.length = n) (hdone : s.port.done = n) :
    exec (.write n) s = .next (s.completed (some .txProducer) [] (BitVec.ofNat 32 n) []) := by
  rw [exec_write_eq hmay htask hdata, writeStep, State.claim_port, if_pos hdone, respond_eq]
  exact congrArg Outcome.next (State.answer_give_eq_completed s .txProducer _ [])

theorem exec_write_full (hmay : s.mayUse .txProducer) (htask : s.port.agent.isInterrupt = false)
    (hdata : s.port.done + s.port.rest.length = n) (hmore : s.port.done < n) (hfull : s.tx.count = s.cfg.cTx) :
    exec (.write n) s = .next (s.heldAt .txProducer .tx) := by
  have hfree : (s.claim (some .txProducer)).freeOf .tx = 0 := by simp [State.freeOf, hfull]
  rw [exec_write_eq hmay htask hdata, writeStep, State.claim_port, if_neg hmore.ne, if_neg hfree.not_gt, holdOn_eq]
  rfl

/-- With bytes to copy and free space, the step of a `WRITE` writes its chunk and ends with it (R121). -/
theorem exec_write_chunk (hmay : s.mayUse .txProducer) (htask : s.port.agent.isInterrupt = false)
    (hdata : s.port.done + s.port.rest.length = n) (hmore : s.port.done < n) (hroom : s.tx.count < s.cfg.cTx) :
    exec (.write n) s =
      if (s.writeChunk n).port.done = n then
        .next (((s.claim (some .txProducer)).writeChunk n).answer .ok (BitVec.ofNat 32 n) [])
      else .next (((s.claim (some .txProducer)).writeChunk n).suspend none) := by
  have hfree : 0 < (s.claim (some .txProducer)).freeOf .tx := by
    rw [State.claim_freeOf]
    exact Nat.sub_pos_of_lt hroom
  rw [exec_write_eq hmay htask hdata, writeStep, State.claim_port, if_neg hmore.ne, if_pos hfree]
  rfl

end Write

/-- Settles O32: by the branches of `WRITE`, with what a chunk does to TX; the last chunk leaves no data. -/
theorem writeCopiesAChunkOrHolds : Obligations.WriteCopiesAChunkOrHolds := by
  intro n s hok hmay htask hdata
  refine ⟨exec_write_done hmay htask hdata, fun hmore hroom k hk => ?_, exec_write_full hmay htask hdata⟩
  obtain ⟨-, hcontents, hcount, hwake, hdone, hrest, -⟩ := State.writeChunk_spec s n hok hdata
  obtain ⟨hrd, hwr, hbuf⟩ := State.writeChunk_cursors hok hdata hk
  rw [show min (s.freeOf .tx) (n - s.port.done) = k from hk.symm] at hcontents hcount hdone hrest
  have hport : (s.writeChunk n).port = { s.port with done := s.port.done + k, rest := s.port.rest.drop k } := by
    rw [← hdone, ← hrest]
    rfl
  rw [exec_write_chunk hmay htask hdata hmore hroom, hdone]
  by_cases hlast : s.port.done + k = n
  · have hnone : s.port.rest.drop k = [] := List.drop_eq_nil_of_le (by omega)
    rw [if_pos hlast]
    refine ⟨_, rfl, hcontents, hcount, hwake, hrd, hwr, hbuf, fun _ => ?_, fun hpart => absurd hlast hpart.ne⟩
    rw [hlast, hnone] at hport
    rw [← hport]
    rfl
  · rw [if_neg hlast]
    refine ⟨_, rfl, hcontents, hcount, hwake, hrd, hwr, hbuf, fun h => absurd h hlast, fun _ => ?_⟩
    rw [← hrest, ← hdone]
    rfl

/-! ### `TXREADY` (R128, R131) -/

/-- `s` once a `TXREADY` has removed the oldest byte of TX and answered it with the valid bit (R128, R131). -/
def State.afterTxready (s : State) : State :=
  (s.completed (some .txConsumer) []
    (BitVec.ofNat 32 (256 + (s.tx.head (Config.freeByte s.draws)).toNat)) []).setChan .tx
      ((s.take .tx 1).2.tx.withWake
        (s.tx.wake || decide (s.freeOf .tx < s.cfg.txHyst ∧ s.cfg.txHyst ≤ s.freeOf .tx + 1)))

/-- The valid bit stands above the byte (R128). -/
theorem txready_result_eq (b : Byte) : 0x100#32 ||| b.setWidth 32 = BitVec.ofNat 32 (256 + b.toNat) := by
  have hor : 256 + b.toNat = 256 ||| b.toNat := Nat.two_pow_add_eq_or_of_lt (i := 8) b.isLt 1
  rw [hor, BitVec.ofNat_or]
  congr 1
  simp

section Txready

variable {s : State}

/-- The agent at the port keeps the role it has used (R227). -/
theorem State.afterTxready_role (s : State) :
    s.afterTxready.roles.get .txConsumer = some s.afterTxready.port.agent :=
  Roles.get_give_same s.roles .txConsumer s.port.agent

theorem exec_txready_byte (hmay : s.mayUse .txConsumer) (hc : 0 < s.tx.count) :
    exec .txready s = .next s.afterTxready := by
  change execTxready s = _
  rw [execTxready, asRole_claim hmay, if_pos (by simpa using hc)]
  dsimp only
  rw [← State.signalRemoval_onTx, State.take_signalRemoval, respond_eq, State.answer_setChan_claim, txready_result_eq]
  simp only [true_and]
  rfl

theorem exec_txready_empty (hmay : s.mayUse .txConsumer) (hc : s.tx.count = 0) :
    exec .txready s = .next (s.completed (some .txConsumer) [] 0 []) := by
  change execTxready s = _
  rw [execTxready, asRole_claim hmay, if_neg (by simp [hc]), respond_eq]
  exact congrArg Outcome.next (State.answer_give_eq_completed s .txConsumer 0 [])

end Txready

/-- `t` is where the removal of `k` bytes of TX one after the other leads from `s`: the wake is
set if it was, or if the free space crossed `TX_HYST` on the way (R131). -/
structure Drained (k : Nat) (s t : State) : Prop where
  cfg : t.cfg = s.cfg
  count : t.tx.count + k = s.tx.count
  ok : t.tx.Ok s.cfg.cTx
  wake : t.tx.wake = true ↔
    s.tx.wake = true ∨ (s.freeOf .tx < s.cfg.txHyst ∧ s.cfg.txHyst ≤ s.freeOf .tx + k)

section Drained

variable {k : Nat} {s t u : State}

theorem Drained.refl (hok : s.tx.Ok s.cfg.cTx) : Drained 0 s s :=
  ⟨rfl, rfl, hok, .inl, fun h => h.resolve_right fun ⟨hbelow, hreached⟩ => absurd hreached hbelow.not_ge⟩

theorem afterTxready_drained (hok : s.tx.Ok s.cfg.cTx) (hc : 0 < s.tx.count) : Drained 1 s s.afterTxready := by
  obtain ⟨-, -, hok', hcount, -⟩ := State.take_spec s .tx 1 hok hc
  refine ⟨rfl, (congrArg (· + 1) hcount).trans (Nat.sub_add_cancel hc), Channel.withWake_ok _ hok', ?_⟩
  simp [State.afterTxready]

/-- Removals add up: the free space crosses `TX_HYST` in the first or in the later ones. -/
theorem Drained.cons (hcap : s.tx.count ≤ s.cfg.cTx) (h : Drained 1 s t) (h' : Drained k t u) :
    Drained (k + 1) s u := by
  obtain ⟨hcfg, hcount, -, hwake⟩ := h
  obtain ⟨hcfg', hcount', hok', hwake'⟩ := h'
  rw [hcfg] at hok'
  have hfree : t.freeOf .tx = s.freeOf .tx + 1 := by
    change t.cfg.cTx - t.tx.count = s.cfg.cTx - s.tx.count + 1
    rw [hcfg]
    omega
  refine ⟨hcfg'.trans hcfg, by omega, hok', ?_⟩
  rw [hwake', hwake, hcfg, hfree, or_assoc]
  refine or_congr_right ?_
  omega

/-- From a full TX with the wake clear, the wake comes with the `TX_HYST`-th removal (R131, R132). -/
theorem Drained.wake_iff_of_full (h : Drained k s t) (hl : s.cfg.Legal) (hfull : s.tx.count = s.cfg.cTx)
    (hclear : s.tx.wake = false) : t.tx.wake = true ↔ s.cfg.txHyst ≤ k := by
  obtain ⟨-, -, hhyst, -⟩ := hl
  have hfree : s.freeOf .tx = 0 := by simp [State.freeOf, hfull]
  rw [h.wake, hclear, hfree]
  simp [Nat.lt_of_lt_of_le Nat.zero_lt_one hhyst]

end Drained

/-- Settles O35: by the two branches of `TXREADY`; one removal reaches `TX_HYST` exactly when it crosses it. -/
theorem txreadyRemovesTheOldest : Obligations.TxreadyRemovesTheOldest := by
  intro s hok hmay
  refine ⟨fun hc => ⟨s.tx.head (Config.freeByte s.draws), _, exec_txready_byte hmay hc, ?_⟩,
    exec_txready_empty hmay⟩
  obtain ⟨-, hcontents, -, hcount, hrd, hwr, -, hbuf⟩ := State.take_spec s .tx 1 hok hc
  have hwake := (afterTxready_drained hok hc).wake
  have hcap : s.tx.count ≤ s.cfg.cTx := hok.1
  have hfree : s.freeOf .tx = s.cfg.cTx - s.tx.count := rfl
  refine ⟨?_, hcount, hrd, hwr, hbuf, ?_, rfl⟩
  · rw [Channel.head_eq (Config.freeByte s.draws) hok hc, ← List.drop_one]
    exact congrArg _ hcontents.symm
  · rw [hwake, show s.afterTxready.tx.count = s.tx.count - 1 from hcount, hfree]
    refine or_congr_right ?_
    omega

/-- As many `TXREADY` requests as there are bytes in TX remove a byte each (R128). -/
theorem execAll_txready (k : Nat) {s : State} (hok : s.tx.Ok s.cfg.cTx) (hmay : s.mayUse .txConsumer)
    (hk : k ≤ s.tx.count) : ∃ t, execAll (List.replicate k .txready) s = .next t ∧ Drained k s t := by
  induction k generalizing s with
  | zero => exact ⟨s, rfl, .refl hok⟩
  | succ k ih =>
    have hc : 0 < s.tx.count := by omega
    have hfirst := afterTxready_drained hok hc
    have hcount := hfirst.count
    obtain ⟨t, hrun, hrest⟩ := ih hfirst.ok (.inr s.afterTxready_role) (by omega)
    refine ⟨t, ?_, hfirst.cons hok.1 hrest⟩
    rw [List.replicate_succ, execAll, exec_txready_byte hmay hc]
    exact hrun

/-- Settles O36: as many removals from a full TX, and what they do to its wake. -/
theorem wakeComesAtTheHysteresis : Obligations.WakeComesAtTheHysteresis := by
  intro s k hl hok hfull hclear hmay hk
  obtain ⟨t, hrun, ht⟩ := execAll_txready k hok hmay (hfull ▸ hk)
  refine ⟨t, hrun, ?_, ht.wake_iff_of_full hl hfull hclear⟩
  rw [← hfull, ← ht.count, Nat.add_sub_cancel]

/-! ### A `WRITE` held on a full TX (R132) -/

section HeldWrite

variable {s t : State} {a : Agent} {k : Continuation}

theorem runsTo_keeps_inv {n : Nat} (h : runsTo n s t) (hs : s.Inv) : t.Inv := by
  induction n generalizing s with
  | zero => exact h ▸ hs
  | succ n ih =>
    obtain ⟨u, hstep, hrun⟩ := h
    exact ih hrun (everyStepKeepsTheInvariant s u hs hstep)

/-- An agent in interrupt context has no request in flight (R226). -/
theorem State.Inv.idle_of_interrupt (hs : s.Inv) (ha : a.isInterrupt = true) : s.conts.get a = none := by
  cases hk : s.conts.get a with
  | none => rfl
  | some k =>
    obtain ⟨i, hi⟩ := hs.unfinished hk
    exact absurd (ha.symm.trans hi.context) nofun

/-- The one request that can hold in the role of TX's producer is `WRITE` (R226, R227). -/
theorem write_of_canHold {i : Instr} (hcan : i.canHold = true) (hrole : roleOf i = some .txProducer) :
    ∃ n, i = .write n := by
  cases i with
  | write n => exact ⟨n, rfl⟩
  | popb | read => cases hrole
  | push | popnb | free | avail | wspace | ravail | rxbyte | txready | rxlost | feed | wasupd | nbytes | ngood | nbad
  | conn | mem | adc | engspd | gndspd | oilp | wtemp | volt | afr | ses | run | dtc => cases hcan

/-- What is held on the wake of TX is a `WRITE` with bytes still to copy (R103, R121). -/
theorem State.Inv.held_write (hs : s.Inv) (hk : s.conts.get a = some k) (hw : k.waiting = some .tx) :
    ∃ n, Unfinished s a k (.write n) ∧ k.rest ≠ [] := by
  obtain ⟨i, hi⟩ := hs.unfinished hk
  obtain ⟨n, rfl⟩ := write_of_canHold hi.canHold (hi.waits .tx hw)
  obtain ⟨-, hagents⟩ := s.inv_iff.1 hs
  have hcont := hagents a
  simp only [State.contOk, hk, hi.decodes, Bool.and_eq_true, decide_eq_true_eq] at hcont
  obtain ⟨-, -, hrest⟩ := hcont
  exact ⟨n, hi, hrest⟩

/-- The word of `TXREADY`. -/
theorem decode_txreadyWord : decode 0x34000000 = .ok .txready := by decide

/-- The step in which TXI issues a `TXREADY` that finds a byte: it is removed, and what is in flight stays as it is. -/
theorem step_txready {later : List Choice} {q : Request} {qs : List Request} (hs : s.Inv)
    (hrole : s.roles.get .txConsumer = none ∨ s.roles.get .txConsumer = some .txi)
    (hq : q.word = 0x34000000) (hprog : s.programs.get .txi = q :: qs) (hsched : s.schedule = .agent .txi :: later)
    (hc : 0 < s.tx.count) :
    ∃ t, step s = .next t ∧ Drained 1 s t ∧ t.conts = s.conts ∧ t.roles.get .txConsumer = some .txi ∧
      t.programs.get .txi = qs ∧ t.schedule = later := by
  obtain ⟨hl, -, hok, -⟩ := id hs
  have hidle : s.conts.get .txi = none := hs.idle_of_interrupt rfl
  have hstep : step s = .next (({ s with schedule := later } : State).issue .txi q qs).afterTxready := by
    rw [step_issue hl hsched hidle hprog, perform_of_decode (by rw [State.issue_port, hq]; exact decode_txreadyWord)]
    exact exec_txready_byte hrole hc
  obtain ⟨hcfg, hcount, hok', hwake⟩ :=
    afterTxready_drained (s := ({ s with schedule := later } : State).issue .txi q qs) hok hc
  refine ⟨_, hstep, ⟨hcfg, hcount, hok', hwake⟩, ?_, State.afterTxready_role _, rfl, rfl⟩
  calc s.conts.set .txi none = s.conts.set .txi (s.conts.get .txi) := by rw [hidle]
    _ = s.conts := PerAgent.set_get_self _ _

/-- `n` such steps, while TX has the bytes. -/
theorem runsTo_txready {n : Nat} {q : Request} {later : List Choice} {more : List Request} (hs : s.Inv)
    (hrole : s.roles.get .txConsumer = none ∨ s.roles.get .txConsumer = some .txi)
    (hq : q.word = 0x34000000) (hprog : s.programs.get .txi = List.replicate n q ++ more)
    (hsched : s.schedule = List.replicate n (.agent .txi) ++ later) (hn : n ≤ s.tx.count) :
    ∃ u, runsTo n s u ∧ Drained n s u ∧ u.conts = s.conts ∧ u.schedule = later := by
  induction n generalizing s with
  | zero =>
    obtain ⟨-, -, hok, -⟩ := hs
    exact ⟨s, rfl, .refl hok, rfl, hsched⟩
  | succ n ih =>
    obtain ⟨-, -, ⟨hcap, -⟩, -⟩ := id hs
    obtain ⟨t, hstep, hfirst, hconts, hrole', hprog', hsched'⟩ := step_txready hs hrole hq hprog hsched (by omega)
    have hcount := hfirst.count
    obtain ⟨u, hrun, hrest, hconts', hlater⟩ :=
      ih (everyStepKeepsTheInvariant s t hs hstep) (.inr hrole') hprog' hsched' (by omega)
    exact ⟨u, ⟨t, hstep, hrun⟩, hfirst.cons hcap hrest, hconts'.trans hconts, hlater⟩

/-- With bytes to copy and free space, a `WRITE` queues its chunk and emits `TxStart` first of all (R121, R127). -/
theorem exec_write_queues {n : Nat} (hok : s.tx.Ok s.cfg.cTx) (hmay : s.mayUse .txProducer)
    (htask : s.port.agent.isInterrupt = false) (hdata : s.port.done + s.port.rest.length = n)
    (hmore : s.port.done < n) (hroom : s.tx.count < s.cfg.cTx) :
    ∃ t es, exec (.write n) s = .next t ∧
      t.tx.count = s.tx.count + min (s.cfg.cTx - s.tx.count) (n - s.port.done) ∧
      t.history = s.history ++ .txStart :: es := by
  obtain ⟨-, hchunk, -⟩ := writeCopiesAChunkOrHolds n s hok hmay htask hdata
  obtain ⟨t, hexec, -, hcount, -, -, -, -, hlast, hpart⟩ := hchunk hmore hroom _ rfl
  rcases Nat.lt_or_eq_of_le (show s.port.done + min (s.cfg.cTx - s.tx.count) (n - s.port.done) ≤ n by omega)
    with hlt | heq
  · exact ⟨t, [], hexec, hcount, by rw [hpart hlt]⟩
  · exact ⟨t, _, hexec, hcount, by rw [hlast heq]; exact List.append_assoc _ _ _⟩

end HeldWrite

/-- Settles O37: TXI's removals set the wake, the step after them resumes the `WRITE`, and its chunk follows. -/
theorem heldWriteResumesAfterHysteresis : Obligations.HeldWriteResumesAfterHysteresis := by
  intro s a k later more hs hk hw hfull hclear hrole hprog hsched
  obtain ⟨hl, -⟩ := id hs
  obtain ⟨-, -, hhyst, hhystCap, -⟩ := id hl
  obtain ⟨u, hrun, hdrained, hconts, hlater⟩ := runsTo_txready hs hrole rfl hprog hsched (hfull ▸ hhystCap)
  have hwake : u.tx.wake = true := (hdrained.wake_iff_of_full hl hfull hclear).2 le_rfl
  have hcount : u.tx.count + s.cfg.txHyst = s.cfg.cTx := hdrained.count.trans hfull
  have hu : u.Inv := runsTo_keeps_inv hrun hs
  obtain ⟨hlu, -, hok, -⟩ := id hu
  rw [← hconts] at hk
  obtain ⟨n, hwrite, hrest⟩ := hu.held_write hk hw
  have hdata : k.done + k.rest.length = n := hwrite.data n rfl
  have hmore : k.done < n := by have := List.length_pos_iff.2 hrest; omega
  have hroom : u.tx.count < u.cfg.cTx := by rw [hdrained.cfg]; omega
  obtain ⟨t, es, hexec, hqueued, hhistory⟩ :=
    exec_write_queues (s := (({ u with schedule := later } : State).resumed a .tx).reenter a k) hok
      (.inr (hwrite.role _ rfl)) hwrite.context hdata hmore hroom
  refine ⟨u, t, hrun, hwake, ?_, ?_, es, ?_⟩
  · rw [step_awake hlu hlater hk hw hwake, perform_reenter hwrite.decodes, hexec]
  · have hleft : n - k.done = k.rest.length := by omega
    have hspace : s.cfg.cTx - u.tx.count = s.cfg.txHyst := by omega
    change t.tx.count = u.tx.count + min (u.cfg.cTx - u.tx.count) (n - k.done) at hqueued
    rw [hqueued, hdrained.cfg, hleft, hspace]
    omega
  · rw [hhistory, State.reenter_history, State.resumed_history, List.append_assoc, List.drop_left]
    rfl

end Sys2Proof.Machine

/-! The statements of 42_decoder: one `FEED` in each decoder state (R152 to R160), then a whole frame from AwaitSync1,
its checksum law and the detection of one changed byte (R161, R164). -/

namespace Sys2Proof.Machine

open Host (Outcome)

/-! ### One `FEED` -/

/-! The arm of each decoder state (R150). -/

section Arms

variable {b : Byte}

theorem feedArm_awaitSync1 (s : State) (hd : s.dstate = .awaitSync1) : feedArm b s = feedAwaitSync1 b s := by
  rw [feedArm, hd]

theorem feedArm_awaitSync2 (s : State) (hd : s.dstate = .awaitSync2) : feedArm b s = feedAwaitSync2 b s := by
  rw [feedArm, hd]

theorem feedArm_readingBody (s : State) (hd : s.dstate = .readingBody) : feedArm b s = feedReadingBody b s := by
  rw [feedArm, hd]

theorem feedArm_readingStatus (s : State) (hd : s.dstate = .readingStatus) : feedArm b s = feedReadingStatus b s := by
  rw [feedArm, hd]

theorem feedArm_readingAnalog (s : State) (hd : s.dstate = .readingAnalog) : feedArm b s = feedReadingAnalog b s := by
  rw [feedArm, hd]

theorem feedArm_awaitChecksumHi (s : State) (hd : s.dstate = .awaitChecksumHi) :
    feedArm b s = feedAwaitChecksumHi b s := by
  rw [feedArm, hd]

theorem feedArm_awaitChecksumLo (s : State) (hd : s.dstate = .awaitChecksumLo) :
    feedArm b s = feedAwaitChecksumLo b s := by
  rw [feedArm, hd]

theorem feedArm_unrecognized (s : State) (hd : s.dstate = .unrecognized) : feedArm b s = feedUnrecognized b s := by
  rw [feedArm, hd]

theorem feedAwaitSync1_sync (s : State) :
    feedAwaitSync1 0x55 s = { s with sum := 0x0055, dstate := .awaitSync2 } := rfl

theorem feedAwaitSync1_other (s : State) (hb : b ≠ 0x55) : feedAwaitSync1 b s = s.meets (.framingError b) :=
  if_neg hb

theorem feedAwaitSync2_sync (s : State) :
    feedAwaitSync2 0xAA s = { s with sum := s.sum + 0x00AA, idx := 0, dstate := .readingBody } := rfl

theorem feedAwaitSync2_other (s : State) (hb : b ≠ 0xAA) :
    feedAwaitSync2 b s =
      State.meets { s with sum := s.sum + b.setWidth 16, dstate := .awaitSync1 } (.framingError b) := if_neg hb

end Arms

/-- `s` once a `FEED` has claimed its role and counted its byte, before its arm (R152, R227). -/
def State.counted (s : State) : State :=
  { s.claim (some .decoderFeeder) with nBytes := bump s.cfg s.nBytes }

section Feed

variable {b : Byte} {s : State}

theorem badStagingIndex_iff : badStagingIndex s = true ↔ s.dstate = .readingBody ∧ 256 ≤ s.idx.toNat := by
  rw [badStagingIndex, Bool.and_eq_true, decide_eq_true_eq, decide_eq_true_eq, bodyLen]

@[simp] theorem badStagingIndex_claim (s : State) (r : Option Role) :
    badStagingIndex (s.claim r) = badStagingIndex s := rfl

@[simp] theorem State.fed_cfg (s : State) (evs : List Event) : (s.fed evs).cfg = s.cfg := rfl

theorem State.fed_nBytes (s : State) (evs : List Event) :
    (s.fed evs).nBytes = (s.nBytes + 1) % 2 ^ s.cfg.cntW := rfl

theorem State.counted_answer (s : State) : s.counted.answer .ok 0 [] = s.fed [] := by
  simp [State.counted, State.fed, State.claim, State.answer, State.completed, bump]

theorem State.counted_meets_answer (s : State) (c : Condition) :
    (s.counted.meets c).answer .ok 0 [] = s.fed [.condition c] := rfl

/-- The agent at the port keeps the role it has used (R227). -/
theorem State.fed_mayUse (s : State) (evs : List Event) : (s.fed evs).mayUse .decoderFeeder :=
  .inr (Roles.get_give_same s.roles .decoderFeeder s.port.agent)

/-- A `FEED` that has its staging cell counts its byte, does what its arm does and answers 0 (R150, R152). -/
theorem exec_feed (hmay : s.mayUse .decoderFeeder) (hidx : s.dstate = .readingBody → s.idx.toNat < 256) :
    exec (.feed b) s = .next ((feedArm b s.counted).answer .ok 0 []) := by
  have hcell : badStagingIndex s ≠ true := fun h =>
    have ⟨hd, hge⟩ := badStagingIndex_iff.1 h
    absurd (hidx hd) hge.not_gt
  change execFeed b s = _
  rw [execFeed, asRole_claim hmay, badStagingIndex_claim, if_neg hcell, respond_eq]
  rfl

/-- The same outside ReadingBody, where no arm stores at `mem_s[idx]`. -/
theorem exec_feed_outside_body (hmay : s.mayUse .decoderFeeder) (hd : s.dstate ≠ .readingBody) :
    exec (.feed b) s = .next ((feedArm b s.counted).answer .ok 0 []) :=
  exec_feed hmay fun h => absurd h hd

end Feed

/-- Settles O39: by the two branches of each of the two arms. -/
theorem feedHuntsForSync : Obligations.FeedHuntsForSync := by
  intro b s hmay
  refine ⟨fun hd hb => ?_, fun hd hb => ?_, fun hd hb => ?_, fun hd hb => ?_⟩ <;>
    rw [exec_feed_outside_body hmay (by simp [hd])]
  · rw [feedArm_awaitSync1 s.counted hd, hb, feedAwaitSync1_sync, ← State.counted_answer]
    rfl
  · rw [feedArm_awaitSync1 s.counted hd, feedAwaitSync1_other _ hb, State.counted_meets_answer]
  · rw [feedArm_awaitSync2 s.counted hd, hb, feedAwaitSync2_sync, ← State.counted_answer]
    rfl
  · rw [feedArm_awaitSync2 s.counted hd, feedAwaitSync2_other _ hb, ← State.counted_meets_answer]
    rfl

/-- Settles O41: the check of the staging index comes before the arm. -/
theorem feedOutsideTheStagingCopyFaults : Obligations.FeedOutsideTheStagingCopyFaults := by
  intro b s hmay hd hidx
  change execFeed b s = _
  rw [execFeed, asRole_claim hmay, badStagingIndex_claim, if_pos (badStagingIndex_iff.2 ⟨hd, hidx⟩)]
  rfl

theorem exec_feed_status {b : Byte} {s : State} (hmay : s.mayUse .decoderFeeder) (hd : s.dstate = .readingStatus) :
    exec (.feed b) s = .next
      { s.fed [] with sum := s.sum + b.setWidth 16, idx := 0, dstate := .readingAnalog } := by
  rw [exec_feed_outside_body hmay (by simp [hd]), feedArm_readingStatus s.counted hd, ← State.counted_answer]
  rfl

/-- Settles O42: by the arm of ReadingStatus. -/
theorem feedDiscardsTheStatusByte : Obligations.FeedDiscardsTheStatusByte :=
  fun _ _ => exec_feed_status

/-- Settles O46: code 7 is the unrecognized state, whose arm only goes back to AwaitSync1. -/
theorem feedRecoversFromCodeSeven : Obligations.FeedRecoversFromCodeSeven := by
  intro b s hmay hcode
  have hd : s.dstate = .unrecognized := by
    cases hs : s.dstate with
    | unrecognized => rfl
    | awaitSync1 | awaitSync2 | readingBody | readingStatus | readingAnalog | awaitChecksumHi
    | awaitChecksumLo => rw [hs] at hcode; exact absurd hcode (by decide)
  rw [exec_feed_outside_body hmay (by simp [hd]), feedArm_unrecognized s.counted hd, ← State.counted_meets_answer]
  rfl

/-! ### A run of requests -/

section Run

variable {i : Instr} {is js : List Instr} {s t : State}

theorem execAll_cons (h : exec i s = .next t) : execAll (i :: is) s = execAll is t := by
  rw [execAll, h]

theorem execAll_append (h : execAll is s = .next t) : execAll (is ++ js) s = execAll js t := by
  induction is generalizing s with
  | nil => cases h; rfl
  | cons i is ih =>
    rw [execAll] at h
    split at h
    · next u hu => rw [List.cons_append, execAll_cons hu, ih h]
    · cases h
    · cases h

end Run

/-! ### Body and analog bytes (R155, R157) -/

/-- Counting `idx` up to the last place of a field of `n` bytes does not wrap, and ends the field at its last byte
only (R28). -/
theorem idx_succ {idx : BitVec 9} {n : Nat} (h : idx.toNat < n) (hn : n ≤ bodyLen) :
    idx + 1 = BitVec.ofNat 9 (idx.toNat + 1) ∧ (idx + 1 = BitVec.ofNat 9 n ↔ idx.toNat = n - 1) := by
  refine ⟨by simp [BitVec.ofNat_add], ?_⟩
  rcases idx_succ_cases h hn with ⟨hlast, hlen⟩ | ⟨hmore, hsucc, hlt⟩
  · exact iff_of_true hlast (by omega)
  · exact iff_of_false hmore (by omega)

/-- Two bytes put together fit 16 bits (R53, R54). -/
theorem littleEndian_eq (lo hi : Byte) :
    lo.setWidth 16 + (hi.setWidth 16 <<< 8) = BitVec.ofNat 16 (lo.toNat + 256 * hi.toNat) := by
  apply BitVec.eq_of_toNat_eq
  have := lo.isLt
  have := hi.isLt
  simp [Nat.shiftLeft_eq]
  omega

/-- `idx` holds any number below 512 (R28). -/
theorem idx_toNat {n : Nat} (h : n < 2 ^ 9) : (BitVec.ofNat 9 n).toNat = n := Nat.mod_eq_of_lt h

section Stored

variable {b : Byte} {s : State}

/-- `s` once the `FEED` of the body byte at place `n` has stored it and moved on (R155). -/
def State.afterBody (s : State) (n : Nat) (b : Byte) : State :=
  { s.fed [] with
    sum := s.sum + b.setWidth 16
    memS := Memory.write s.memS n b
    idx := BitVec.ofNat 9 (n + 1)
    dstate := if n = 255 then .readingStatus else .readingBody }

theorem State.afterBody_read (s : State) (n : Nat) (b : Byte) (a : Nat) :
    Memory.read? (s.afterBody n b).memS a = if a = n then some b else Memory.read? s.memS a :=
  Memory.read?_write _ _ _ _

theorem exec_feed_body {n : Nat} (hmay : s.mayUse .decoderFeeder) (hd : s.dstate = .readingBody)
    (hidx : s.idx.toNat = n) (hn : n < 256) : exec (.feed b) s = .next (s.afterBody n b) := by
  subst hidx
  obtain ⟨hsucc, hlast⟩ := idx_succ (n := 256) hn le_rfl
  rw [exec_feed hmay fun _ => hn, feedArm_readingBody s.counted hd, State.afterBody,
    ← State.counted_answer, ← hsucc]
  simp only [← hlast]
  rfl

/-- The word the analog byte at place `n` leaves at its index: a low byte starts it, a high byte is added to what the
low one left (R53, R157). -/
def analogSum (n : Nat) (old : Half) (b : Byte) : Half :=
  if n % 2 = 0 then b.setWidth 16 else old + (b.setWidth 16 <<< 8)

theorem analogSum_low (j : Nat) (old : Half) (b : Byte) : analogSum (2 * j) old b = b.setWidth 16 :=
  if_pos (Nat.mul_mod_right 2 j)

/-- Two analog bytes make a little-endian word (R53). -/
theorem analogSum_high (j : Nat) (lo hi : Byte) :
    analogSum (2 * j + 1) (lo.setWidth 16) hi = BitVec.ofNat 16 (lo.toNat + 256 * hi.toNat) := by
  rw [analogSum, if_neg (by omega), littleEndian_eq]

/-- `s` once the `FEED` of the analog byte at place `n` has stored its word and moved on (R157). -/
def State.afterAnalog (s : State) (n : Nat) (word : Half) (b : Byte) : State :=
  { s.fed [] with
    sum := s.sum + b.setWidth 16
    adcS := Memory.write s.adcS (n / 2) word
    idx := BitVec.ofNat 9 (n + 1)
    dstate := if n = 15 then .awaitChecksumHi else .readingAnalog }

/-- The next analog byte finds its place in `idx`, and what is stored (R28, R157). -/
theorem State.afterAnalog_idx {n : Nat} (hn : n < 16) (s : State) (word : Half) (b : Byte) :
    (s.afterAnalog n word b).idx.toNat = n + 1 := idx_toNat (by omega)

theorem State.afterAnalog_mayUse (s : State) (n : Nat) (word : Half) (b : Byte) :
    (s.afterAnalog n word b).mayUse .decoderFeeder := s.fed_mayUse []

theorem State.afterAnalog_read (s : State) (n : Nat) (word : Half) (b : Byte) (m : Nat) :
    Memory.read? (s.afterAnalog n word b).adcS m =
      if m = n / 2 then some word else Memory.read? s.adcS m := Memory.read?_write _ _ _ _

/-- What `ReadingAnalog` stores, when the low byte of a word it completes has been stored. -/
theorem analogWord_eq {old : Half} (j : Nat)
    (hold : s.idx.toNat % 2 = 1 → Memory.read? s.adcS j = some old) :
    analogWord b s j = analogSum s.idx.toNat old b := by
  have hbit : s.idx.getLsbD 0 = false ↔ s.idx.toNat % 2 = 0 := by
    rw [BitVec.getLsbD, Nat.testBit_zero]
    simp
  unfold analogWord analogSum
  simp only [hbit]
  split
  · rfl
  · next hodd => rw [State.halfAt, Memory.fetch_of_read? (hold (by omega))]

theorem exec_feed_analog {n : Nat} {old : Half} (hmay : s.mayUse .decoderFeeder) (hd : s.dstate = .readingAnalog)
    (hidx : s.idx.toNat = n) (hn : n < 16) (hold : n % 2 = 1 → Memory.read? s.adcS (n / 2) = some old) :
    exec (.feed b) s = .next (s.afterAnalog n (analogSum n old b) b) := by
  subst hidx
  obtain ⟨hsucc, hlast⟩ := idx_succ (n := 16) hn (by decide)
  rw [exec_feed_outside_body hmay (by simp [hd]), feedArm_readingAnalog s.counted hd, State.afterAnalog,
    ← State.counted_answer, ← hsucc, ← analogWord_eq _ hold, ← analogIndex_toNat hn]
  simp only [← hlast]
  rfl

end Stored

/-- Settles O40: by the arm of ReadingBody. -/
theorem feedStoresABodyByte : Obligations.FeedStoresABodyByte := fun _ _ hmay hd hidx =>
  ⟨_, exec_feed_body hmay hd rfl hidx, State.afterBody_read _ _ _, rfl⟩

/-- Settles O43: by the arm of ReadingAnalog. -/
theorem feedStoresAnAnalogByte : Obligations.FeedStoresAnAnalogByte := fun _ _ _ hmay hd hidx hold =>
  ⟨_, exec_feed_analog hmay hd rfl hidx hold, State.afterAnalog_read _ _ _ _, rfl⟩

/-- Settles O44: the low byte starts the word and the high byte is added to it. -/
theorem feedAssemblesAnAnalogWord : Obligations.FeedAssemblesAnAnalogWord := by
  intro lo hi s j hmay hd hidx hj
  have hlow := exec_feed_analog (b := lo) (old := 0) hmay hd hidx (by omega) (by omega)
  rw [analogSum_low] at hlow
  have hmore : (s.afterAnalog (2 * j) (lo.setWidth 16) lo).dstate = .readingAnalog := if_neg (by omega)
  have hhigh := exec_feed_analog (b := hi) (old := lo.setWidth 16) (s.afterAnalog_mayUse _ _ _) hmore
    (s.afterAnalog_idx (by omega) _ lo) (by omega)
    fun _ => by rw [State.afterAnalog_read, if_pos (by omega)]
  rw [analogSum_high] at hhigh
  refine ⟨_, (execAll_cons hlow).trans (execAll_cons hhigh), fun m => ?_, ?_⟩
  · rw [State.afterAnalog_read, State.afterAnalog_read, show (2 * j + 1) / 2 = j by omega,
      Nat.mul_div_cancel_left j Nat.two_pos]
    exact ite_congr rfl (fun _ => rfl) fun hne => if_neg hne
  · simp only [show j = 7 ↔ 2 * j + 1 = 15 by omega]
    rfl

/-! ### The checksum bytes (R158, R159) -/

section Checksum

variable {b : Byte} {s : State}

/-- `s` once the `FEED` of the high checksum byte has taken it off the sum (R158). -/
def State.afterChecksumHi (s : State) (b : Byte) : State :=
  { s.fed [] with sum := s.sum - (b.setWidth 16 <<< 8), dstate := .awaitChecksumLo }

theorem State.afterChecksumHi_mayUse (s : State) (b : Byte) : (s.afterChecksumHi b).mayUse .decoderFeeder :=
  s.fed_mayUse []

theorem exec_feed_checksumHi (hmay : s.mayUse .decoderFeeder) (hd : s.dstate = .awaitChecksumHi) :
    exec (.feed b) s = .next (s.afterChecksumHi b) := by
  rw [exec_feed_outside_body hmay (by simp [hd]), feedArm_awaitChecksumHi s.counted hd, feedAwaitChecksumHi,
    BitVec.add_sub_cancel, State.afterChecksumHi, ← State.counted_answer]
  rfl

theorem exec_feed_checksumLo_match (hmay : s.mayUse .decoderFeeder) (hd : s.dstate = .awaitChecksumLo)
    (hsum : s.sum = b.setWidth 16) :
    exec (.feed b) s = .next { s.fed [] with
      dstate := .awaitSync1
      memP := s.memS
      adcP := s.adcS
      updated := true
      connected := true
      nGood := (s.nGood + 1) % 2 ^ s.cfg.cntW } := by
  rw [exec_feed_outside_body hmay (by simp [hd]), feedArm_awaitChecksumLo s.counted hd, ← State.counted_answer]
  rcases feedAwaitChecksumLo_cases b s.counted with ⟨-, heq⟩ | ⟨hne, -⟩
  · rw [heq]
    rfl
  · exact absurd hsum hne

theorem exec_feed_checksumLo_fail (hmay : s.mayUse .decoderFeeder) (hd : s.dstate = .awaitChecksumLo)
    (hsum : s.sum ≠ b.setWidth 16) :
    exec (.feed b) s = .next { s.fed [.condition (.checksumFailure s.sum b)] with
      dstate := .awaitSync1
      nBad := (s.nBad + 1) % 2 ^ s.cfg.cntW } := by
  rw [exec_feed_outside_body hmay (by simp [hd]), feedArm_awaitChecksumLo s.counted hd,
    ← State.counted_meets_answer]
  rcases feedAwaitChecksumLo_cases b s.counted with ⟨heq, -⟩ | ⟨-, heq⟩
  · exact absurd heq hsum
  · rw [heq]
    rfl

/-- What is left of a sum once the high checksum byte is taken off is the low one exactly when the two are the
sum's value (R54). -/
theorem sub_high_eq_low_iff (sum : Half) (hi lo : Byte) :
    sum - (hi.setWidth 16 <<< 8) = lo.setWidth 16 ↔ sum.toNat = 256 * hi.toNat + lo.toNat := by
  have hhi := hi.isLt
  have hlo := lo.isLt
  rw [BitVec.sub_eq_iff_eq_add, littleEndian_eq, ← BitVec.toNat_inj, BitVec.toNat_ofNat,
    Nat.mod_eq_of_lt (by omega), Nat.add_comm]

end Checksum

/-- Settles O45: the high byte is taken off the sum and the low byte is compared with what is left. -/
theorem feedComparesTheChecksum : Obligations.FeedComparesTheChecksum := by
  intro hi lo s hmay hd
  have hhigh := exec_feed_checksumHi (b := hi) hmay hd
  rw [← sub_high_eq_low_iff, ne_eq, ← sub_high_eq_low_iff]
  refine ⟨fun hsum => ?_, fun hsum => ?_⟩ <;> rw [execAll_cons hhigh]
  · rw [execAll_cons (exec_feed_checksumLo_match (s.afterChecksumHi_mayUse hi) rfl hsum), ← hsum]
    rfl
  · rw [execAll_cons (exec_feed_checksumLo_fail (s.afterChecksumHi_mayUse hi) rfl hsum)]
    rfl

/-! ### What has been read of a frame (R161)

`P` is the bytes of a frame read so far. A body byte stands at place `2 + a` of its frame and goes to `mem_s[a]`; the
bytes of analog word `i` stand at places `259 + 2 * i` and `260 + 2 * i`. -/

/-- The body bytes read are in the staging copy (R155). -/
def BodyStored (P : List Byte) (m : Memory 8) : Prop :=
  ∀ a < 256, 2 + a < P.length → Memory.read? m a = P[2 + a]?

/-- The analog words begun are in the staging copy, a high byte still to come counting 0 (R53, R157). -/
def AnalogStored (P : List Byte) (m : Memory 16) : Prop :=
  ∀ i < 8, 259 + 2 * i < P.length → Memory.read? m i =
    some (BitVec.ofNat 16 ((P.getD (259 + 2 * i) 0).toNat + 256 * (P.getD (260 + 2 * i) 0).toNat))

section Stored

variable {P : List Byte} {b : Byte} {n : Nat}

theorem getD_concat_length (P : List Byte) (b : Byte) : (P ++ [b]).getD P.length 0 = b := by
  rw [List.getD_append_right _ _ _ _ le_rfl, Nat.sub_self, List.getD_cons_zero]

/-- In the sync pair no byte is one of the body. -/
theorem bodyStored_of_le {m : Memory 8} (hlen : P.length ≤ 2) : BodyStored P m := by
  intro a _ hread
  omega

theorem BodyStored.concat_write {m : Memory 8} (h : BodyStored P m) (hlen : P.length = 2 + n) :
    BodyStored (P ++ [b]) (Memory.write m n b) := by
  intro a ha hread
  rw [List.length_append, List.length_singleton] at hread
  rw [Memory.read?_write]
  split
  · next hat => rw [hat, ← hlen, List.getElem?_concat_length]
  · rw [List.getElem?_append_left (by omega)]
    exact h a ha (by omega)

/-- After the body no byte is one of it. -/
theorem BodyStored.concat_after {m : Memory 8} (h : BodyStored P m) (hlen : 258 ≤ P.length) :
    BodyStored (P ++ [b]) m := by
  intro a ha _
  rw [List.getElem?_append_left (by omega)]
  exact h a ha (by omega)

/-- Up to the status byte no byte is an analog one. -/
theorem analogStored_of_le {m : Memory 16} (hlen : P.length ≤ 259) : AnalogStored P m := by
  intro i _ hread
  omega

/-- A low analog byte begins a word. -/
theorem AnalogStored.concat_low {m : Memory 16} {j : Nat} (h : AnalogStored P m) (hlen : P.length = 259 + 2 * j) :
    AnalogStored (P ++ [b]) (Memory.write m j (b.setWidth 16)) := by
  intro i hi hread
  rw [List.length_append, List.length_singleton] at hread
  rw [Memory.read?_write]
  split
  · next hat =>
    rw [hat, ← hlen, getD_concat_length, List.getD_eq_default _ _ (by simp; omega)]
    simp
  · rw [List.getD_append _ _ _ _ (by omega), List.getD_append _ _ _ _ (by omega)]
    exact h i hi (by omega)

/-- A high analog byte completes the word its low byte began. -/
theorem AnalogStored.concat_high {m : Memory 16} {j : Nat} (h : AnalogStored P m) (hlen : P.length = 260 + 2 * j) :
    AnalogStored (P ++ [b])
      (Memory.write m j (BitVec.ofNat 16 ((P.getD (259 + 2 * j) 0).toNat + 256 * b.toNat))) := by
  intro i hi hread
  rw [List.length_append, List.length_singleton] at hread
  rw [Memory.read?_write, List.getD_append _ _ _ _ (by omega)]
  split
  · next hat => rw [hat, ← hlen, getD_concat_length]
  · rw [List.getD_append _ _ _ _ (by omega)]
    exact h i hi (by omega)

/-- The word an analog byte completes had its low byte stored, and nothing else yet. -/
theorem AnalogStored.low {m : Memory 16} {j : Nat} (h : AnalogStored P m) (hj : j < 8)
    (hlen : P.length = 260 + 2 * j) :
    Memory.read? m j = some ((P.getD (259 + 2 * j) 0).setWidth 16) := by
  rw [h j hj (by omega), List.getD_eq_default P _ hlen.le]
  simp

/-- The analog byte at place `n` of its field stores what `AnalogStored` says, and the low byte it may need is
there. -/
theorem AnalogStored.concat_write {m : Memory 16} (h : AnalogStored P m) (hlen : P.length = 259 + n) (hn : n < 16)
    (b : Byte) :
    ∃ old, (n % 2 = 1 → Memory.read? m (n / 2) = some old) ∧
      AnalogStored (P ++ [b]) (Memory.write m (n / 2) (analogSum n old b)) := by
  obtain ⟨j, rfl | rfl⟩ := Nat.even_or_odd' n
  · refine ⟨0, by omega, ?_⟩
    rw [analogSum_low, Nat.mul_div_cancel_left j Nat.two_pos]
    exact h.concat_low hlen
  · have hhalf : (2 * j + 1) / 2 = j := by omega
    refine ⟨(P.getD (259 + 2 * j) 0).setWidth 16, fun _ => ?_, ?_⟩ <;> rw [hhalf]
    · exact h.low (by omega) (by omega)
    · rw [analogSum_high]
      exact h.concat_high (by omega)

end Stored

/-- What no byte before the last of a frame changes (R188). -/
structure KeepsOutsideFrame (s t : State) : Prop where
  cfg : t.cfg = s.cfg
  rx : t.rx = s.rx
  tx : t.tx = s.tx
  rxLost : t.rxLost = s.rxLost
  memP : t.memP = s.memP
  adcP : t.adcP = s.adcP
  updated : t.updated = s.updated
  connected : t.connected = s.connected
  nGood : t.nGood = s.nGood
  nBad : t.nBad = s.nBad

theorem KeepsOutsideFrame.trans {s t u : State} (h : KeepsOutsideFrame s t) (h' : KeepsOutsideFrame t u) :
    KeepsOutsideFrame s u where
  cfg := h'.cfg.trans h.cfg
  rx := h'.rx.trans h.rx
  tx := h'.tx.trans h.tx
  rxLost := h'.rxLost.trans h.rxLost
  memP := h'.memP.trans h.memP
  adcP := h'.adcP.trans h.adcP
  updated := h'.updated.trans h.updated
  connected := h'.connected.trans h.connected
  nGood := h'.nGood.trans h.nGood
  nBad := h'.nBad.trans h.nBad

theorem KeepsOutsideFrame.fed (s : State) (evs : List Event) : KeepsOutsideFrame s (s.fed evs) :=
  ⟨rfl, rfl, rfl, rfl, rfl, rfl, rfl, rfl, rfl, rfl⟩

/-- Where the decoder stands when so many bytes of a frame have been read, its sync pair among them (R154 to R157). -/
inductive FramePlace (t : State) : Nat → Prop
  | body {n : Nat} (hd : t.dstate = .readingBody) (hidx : t.idx.toNat = n) (hn : n < 256) : FramePlace t (2 + n)
  | status (hd : t.dstate = .readingStatus) : FramePlace t 258
  | analog {n : Nat} (hd : t.dstate = .readingAnalog) (hidx : t.idx.toNat = n) (hn : n < 16) : FramePlace t (259 + n)
  | checksum (hd : t.dstate = .awaitChecksumHi) : FramePlace t 275

/-- `t` is where the `FEED` of the first bytes `P` of a frame leads from `s`. -/
structure FrameRead (P : List Byte) (s t : State) : Prop where
  keeps : KeepsOutsideFrame s t
  mayUse : t.mayUse .decoderFeeder
  nBytes : t.nBytes ≡ s.nBytes + P.length [MOD 2 ^ s.cfg.cntW]
  sum : t.sum = BitVec.ofNat 16 (P.map BitVec.toNat).sum
  body : BodyStored P t.memS
  analog : AnalogStored P t.adcS
  place : FramePlace t P.length

section Frame

variable {P R : List Byte} {b : Byte} {n : Nat} {s t u : State}

/-- After a body byte comes the next one, or the status byte. -/
theorem State.afterBody_place (t : State) (b : Byte) (hn : n < 256) : FramePlace (t.afterBody n b) (2 + n + 1) := by
  by_cases hlast : n = 255
  · subst hlast
    exact .status rfl
  · exact .body (n := n + 1) (if_neg hlast) (idx_toNat (by omega)) (by omega)

/-- After an analog byte comes the next one, or the checksum. -/
theorem State.afterAnalog_place (t : State) (word : Half) (b : Byte) (hn : n < 16) :
    FramePlace (t.afterAnalog n word b) (259 + n + 1) := by
  by_cases hlast : n = 15
  · subst hlast
    exact .checksum rfl
  · exact .analog (n := n + 1) (if_neg hlast) (t.afterAnalog_idx hn _ _) (by omega)

/-- One more byte of the frame, which has changed nothing but the sum, the staging copy and the place (R152). -/
theorem FrameRead.concat (h : FrameRead P s t)
    (hu : u = { t.fed [] with
      sum := t.sum + b.setWidth 16, memS := u.memS, adcS := u.adcS, idx := u.idx, dstate := u.dstate })
    (hbody : BodyStored (P ++ [b]) u.memS) (hanalog : AnalogStored (P ++ [b]) u.adcS)
    (hplace : FramePlace u (P.length + 1)) : FrameRead (P ++ [b]) s u := by
  refine ⟨h.keeps.trans ?_, ?_, ?_, ?_, hbody, hanalog, by rwa [List.length_append]⟩ <;> rw [hu]
  · exact ⟨rfl, rfl, rfl, rfl, rfl, rfl, rfl, rfl, rfl, rfl⟩
  · exact t.fed_mayUse []
  · rw [List.length_append, ← Nat.add_assoc, ← h.keeps.cfg]
    exact (Nat.mod_modEq _ _).trans ((h.keeps.cfg.symm ▸ h.nBytes).add_right 1)
  · simp [h.sum, BitVec.ofNat_add]

/-- Every byte up to the checksum is taken, at whichever place the frame stands. -/
theorem FrameRead.exec_feed (h : FrameRead P s t) (hlen : P.length < 275) :
    ∃ u, exec (.feed b) t = .next u ∧ FrameRead (P ++ [b]) s u := by
  have hplace := h.place
  generalize hl : P.length = l at hplace
  cases hplace with
  | body hd hidx hn =>
    exact ⟨_, exec_feed_body h.mayUse hd hidx hn, h.concat rfl (h.body.concat_write hl)
      (analogStored_of_le (by simp; omega)) (hl ▸ t.afterBody_place b hn)⟩
  | status hd =>
    exact ⟨_, exec_feed_status h.mayUse hd, h.concat rfl (h.body.concat_after hl.ge)
      (analogStored_of_le (by simp; omega)) (hl ▸ .analog (n := 0) rfl rfl (by decide))⟩
  | analog hd hidx hn =>
    obtain ⟨old, hold, hstored⟩ := h.analog.concat_write hl hn b
    exact ⟨_, exec_feed_analog h.mayUse hd hidx hn hold, h.concat rfl (h.body.concat_after (by omega)) hstored
      (hl ▸ t.afterAnalog_place _ b hn)⟩
  | checksum hd => omega

theorem FrameRead.execAll_feed (h : FrameRead P s t) (hlen : P.length + R.length ≤ 275) :
    ∃ u, execAll (R.map .feed) t = .next u ∧ FrameRead (P ++ R) s u := by
  induction R generalizing P t with
  | nil => exact ⟨t, rfl, by rwa [List.append_nil]⟩
  | cons b R ih =>
    rw [List.length_cons] at hlen
    obtain ⟨u, hexec, hu⟩ := h.exec_feed (b := b) (by omega)
    obtain ⟨v, hrun, hv⟩ := ih hu (by simp; omega)
    exact ⟨v, (execAll_cons hexec).trans hrun, by simpa using hv⟩

theorem exec_feed_sync1 (hmay : s.mayUse .decoderFeeder) (hd : s.dstate = .awaitSync1) :
    ∃ t, exec (.feed 0x55) s = .next t ∧ KeepsOutsideFrame s t ∧ t.mayUse .decoderFeeder ∧
      t.dstate = .awaitSync2 ∧ t.sum = 0x0055 ∧ t.nBytes = (s.nBytes + 1) % 2 ^ s.cfg.cntW := by
  obtain ⟨hsync, -⟩ := feedHuntsForSync 0x55 s hmay
  exact ⟨_, hsync hd rfl, ⟨rfl, rfl, rfl, rfl, rfl, rfl, rfl, rfl, rfl, rfl⟩, s.fed_mayUse [], rfl, rfl, rfl⟩

/-- The sync pair begins a frame, whatever was read before it (R153, R154). -/
theorem frameRead_sync (hmay : s.mayUse .decoderFeeder) (hd : s.dstate = .awaitSync1) :
    ∃ t, execAll [.feed 0x55, .feed 0xAA] s = .next t ∧ FrameRead [0x55, 0xAA] s t := by
  obtain ⟨t, hfirst, hkeeps, hmay', hd', hsum, hcount⟩ := exec_feed_sync1 hmay hd
  obtain ⟨-, -, hsecond, -⟩ := feedHuntsForSync 0xAA t hmay'
  refine ⟨_, (execAll_cons hfirst).trans (execAll_cons (hsecond hd' rfl)),
    hkeeps.trans ⟨rfl, rfl, rfl, rfl, rfl, rfl, rfl, rfl, rfl, rfl⟩, t.fed_mayUse [], ?_, ?_,
    bodyStored_of_le le_rfl, analogStored_of_le (by decide), .body (n := 0) rfl rfl (by decide)⟩
  · rw [State.fed_nBytes, hcount, ← hkeeps.cfg]
    exact (Nat.mod_modEq _ _).trans ((Nat.mod_modEq _ _).add_right 1)
  · rw [hsum]
    rfl

theorem FrameRead.atChecksum (h : FrameRead P s t) (hlen : P.length = 275) : t.dstate = .awaitChecksumHi := by
  have hplace := h.place
  rw [hlen] at hplace
  generalize hl : 275 = l at hplace
  cases hplace with
  | checksum hd => exact hd
  | body _ _ hn => omega
  | status => omega
  | analog _ _ hn => omega

/-- The two checksum bytes are counted too, and apart from publishing or failing the frame they change nothing
(R152). -/
theorem FrameRead.fed_fed (h : FrameRead P s t) (hlen : P.length = 275) (evs evs' : List Event) :
    KeepsOutsideFrame s ((t.fed evs).fed evs') ∧
      ((t.fed evs).fed evs').nBytes = (s.nBytes + 277) % 2 ^ s.cfg.cntW := by
  refine ⟨h.keeps.trans ((KeepsOutsideFrame.fed t evs).trans (.fed _ evs')), ?_⟩
  have hcount := h.nBytes
  rw [← h.keeps.cfg, hlen] at hcount
  rw [State.fed_nBytes, State.fed_nBytes, State.fed_cfg, ← h.keeps.cfg]
  exact ((Nat.mod_modEq _ _).add_right 1).trans (hcount.add_right 2)

/-- A frame up to its checksum bytes. -/
theorem execAll_frame (hmay : s.mayUse .decoderFeeder) (hd : s.dstate = .awaitSync1) (hlen : P.length = 275)
    (hfirst : P[0]? = some 0x55) (hsecond : P[1]? = some 0xAA) (rest : List Byte) :
    ∃ t, FrameRead P s t ∧ execAll ((P ++ rest).map .feed) s = execAll (rest.map .feed) t := by
  obtain ⟨x, y, R, rfl⟩ : ∃ x y R, P = x :: y :: R :=
    match P, hlen with
    | x :: y :: R, _ => ⟨x, y, R, rfl⟩
  obtain rfl : x = 0x55 := by simpa using hfirst
  obtain rfl : y = 0xAA := by simpa using hsecond
  obtain ⟨t, hsync, ht⟩ := frameRead_sync hmay hd
  obtain ⟨u, hrun, hu⟩ := ht.execAll_feed (R := R) (by simp at hlen ⊢; omega)
  refine ⟨u, hu, ?_⟩
  rw [List.map_append, List.map_cons, List.map_cons, execAll_append]
  exact (execAll_append hsync).trans hrun

end Frame

/-- A frame is what comes before its checksum and the two checksum bytes. -/
theorem frame_split {B : List Byte} (hlen : B.length = 277) :
    B = B.take 275 ++ [B.getD 275 0, B.getD 276 0] := by
  conv_lhs => rw [← List.take_append_drop 275 B]
  rw [List.drop_eq_getElem_cons (by omega), List.drop_eq_getElem_cons (by omega), List.drop_eq_nil_of_le (by omega)]
  simp [hlen]

/-- Settles O48: the frame is read up to its checksum, which is then compared with the sum. -/
theorem frameIsPublishedIffItsChecksumMatches : Obligations.FrameIsPublishedIffItsChecksumMatches := by
  intro s B hmay hd hlen hfirst hsecond
  have hP : (B.take 275).length = 275 := by rw [List.length_take, hlen]; rfl
  obtain ⟨t, ht, hrun⟩ := execAll_frame hmay hd hP (by rwa [List.getElem?_take_of_lt (by decide)])
    (by rwa [List.getElem?_take_of_lt (by decide)]) [B.getD 275 0, B.getD 276 0]
  rw [← frame_split hlen] at hrun
  obtain ⟨hpublish, hfail⟩ := feedComparesTheChecksum (B.getD 275 0) (B.getD 276 0) t ht.mayUse (ht.atChecksum hP)
  rw [show t.sum.toNat = ((B.take 275).map BitVec.toNat).sum % 2 ^ 16 by rw [ht.sum, BitVec.toNat_ofNat]]
    at hpublish hfail
  by_cases hsum : ((B.take 275).map BitVec.toNat).sum % 2 ^ 16 =
      256 * (B.getD 275 0).toNat + (B.getD 276 0).toNat
  · obtain ⟨hend, hcount⟩ := ht.fed_fed hP [] []
    refine ⟨_, hrun.trans (hpublish hsum), rfl, hcount, hend.rx, hend.tx, hend.rxLost,
      fun _ => ⟨fun a ha => ?_, fun i hi => ?_, rfl, rfl, by rw [ht.keeps.nGood, ht.keeps.cfg], hend.nBad⟩,
      fun hne => absurd hsum hne⟩
    · rw [← List.getElem?_take_of_lt (show 2 + a < 275 by omega)]
      exact ht.body a ha (by omega)
    · have hword := ht.analog i hi (by omega)
      simp only [List.getD_eq_getElem?_getD] at hword ⊢
      rwa [List.getElem?_take_of_lt (by omega), List.getElem?_take_of_lt (by omega)] at hword
  · obtain ⟨hend, hcount⟩ := ht.fed_fed hP []
      [.condition (.checksumFailure (t.sum - ((B.getD 275 0).setWidth 16 <<< 8)) (B.getD 276 0))]
    exact ⟨_, hrun.trans (hfail hsum), rfl, hcount, hend.rx, hend.tx, hend.rxLost, fun heq => absurd heq hsum,
      fun _ => ⟨hend.memP, hend.adcP, hend.updated, hend.connected, hend.nGood,
        by rw [ht.keeps.nBad, ht.keeps.cfg]⟩⟩

/-! ### One changed byte (R164) -/

section Changed

variable {B : List Byte} {j : Nat} {v : Byte}

/-- Changing one byte changes the sum by the difference of the two. -/
theorem sum_set_add (hj : j < B.length) :
    ((B.set j v).map BitVec.toNat).sum + (B.getD j 0).toNat = (B.map BitVec.toNat).sum + v.toNat := by
  induction B generalizing j with
  | nil => simp at hj
  | cons x xs ih =>
    cases j with
    | zero => simp; omega
    | succ j =>
      have hrest := ih (Nat.lt_of_succ_lt_succ hj)
      simp only [List.set_cons_succ, List.map_cons, List.sum_cons, List.getD_cons_succ]
      omega

theorem getD_set_ne {k : Nat} (hk : j ≠ k) : (B.set j v).getD k 0 = B.getD k 0 := by
  rw [List.getD_eq_getElem?_getD, List.getElem?_set_ne hk, ← List.getD_eq_getElem?_getD]

theorem getD_set_self (hj : j < B.length) : (B.set j v).getD j 0 = v := by
  rw [List.getD_eq_getElem?_getD, List.getElem?_set_self hj, Option.getD_some]

/-- The changed byte moves the sum or the checksum by less than either's range, and not both. -/
theorem checksum_set_ne (hlen : B.length = 277) (hj : j ≤ 276) (hv : v ≠ B.getD j 0)
    (hsum : ((B.take 275).map BitVec.toNat).sum % 2 ^ 16 =
      256 * (B.getD 275 0).toNat + (B.getD 276 0).toNat) :
    (((B.set j v).take 275).map BitVec.toNat).sum % 2 ^ 16 ≠
      256 * ((B.set j v).getD 275 0).toNat + ((B.set j v).getD 276 0).toNat := by
  have hP : (B.take 275).length = 275 := by rw [List.length_take, hlen]; rfl
  have hv' : v.toNat ≠ (B.getD j 0).toNat := mt BitVec.eq_of_toNat_eq hv
  have hnew := v.isLt
  have hold := (B.getD j 0).isLt
  rw [List.take_set]
  rcases Nat.lt_or_ge j 275 with hbefore | hchecksum
  · have hset := sum_set_add (B := B.take 275) (v := v) (hP.symm ▸ hbefore)
    have hsame : (B.take 275).getD j 0 = B.getD j 0 := by
      rw [List.getD_eq_getElem?_getD, List.getElem?_take_of_lt hbefore, ← List.getD_eq_getElem?_getD]
    rw [hsame] at hset
    rw [getD_set_ne (by omega), getD_set_ne (by omega)]
    omega
  · rw [List.set_eq_of_length_le (hP.le.trans hchecksum), hsum]
    obtain rfl | rfl : j = 275 ∨ j = 276 := by omega
    · rw [getD_set_self (by omega), getD_set_ne (by decide)]
      omega
    · rw [getD_set_self (by omega), getD_set_ne (by decide)]
      omega

end Changed

/-- Settles O49: the frame with the byte changed is a frame still, and its checksum does not match. -/
theorem oneChangedByteIsDetected : Obligations.OneChangedByteIsDetected := by
  intro s B j v hmay hd hlen hfirst hsecond hsum hj hj' hv
  obtain ⟨t, hrun, -, -, -, -, -, -, hfail⟩ := frameIsPublishedIffItsChecksumMatches s (B.set j v) hmay hd
    (by rw [List.length_set, hlen]) (by rwa [List.getElem?_set_ne (by omega)])
    (by rwa [List.getElem?_set_ne (by omega)])
  obtain ⟨hmemP, hadcP, hupdated, -, hgood, hbad⟩ := hfail (checksum_set_ne hlen hj' hv hsum)
  exact ⟨t, hrun, hmemP, hadcP, hupdated, hgood, hbad⟩

end Sys2Proof.Machine

/-! The statements of 43_snapshot: what changes the published snapshot and its flag (R180, R181, R188), and the
requests that read them and the counters (R182 to R187). -/

namespace Sys2Proof.Machine

/-! ### What a request does to the snapshot (R188) -/

/-- What R188 allows a request `i` from `s` to `u` on the snapshot, `n_good` and `updated`: to leave them all, to
publish at the last byte of a frame whose checksum matches, or to clear `updated` by a `WASUPD`. -/
def SnapshotRule (i : Instr) (s u : State) : Prop :=
  (u.memP = s.memP ∧ u.adcP = s.adcP ∧ u.nGood = s.nGood ∧ u.updated = s.updated) ∨
    ((∃ b, i = .feed b ∧ s.dstate = .awaitChecksumLo ∧ s.sum = b.setWidth 16) ∧ u.updated = true) ∨
    (i = .wasupd ∧ u.memP = s.memP ∧ u.adcP = s.adcP ∧ u.nGood = s.nGood ∧ u.updated = false)

section Rule

variable {i : Instr} {s t u : State}

theorem SnapshotRule.publish_of_changed (h : SnapshotRule i s t)
    (hchanged : t.memP ≠ s.memP ∨ t.adcP ≠ s.adcP ∨ t.nGood ≠ s.nGood ∨
      (s.updated = false ∧ t.updated = true)) :
    ∃ b, i = .feed b ∧ s.dstate = .awaitChecksumLo ∧ s.sum = b.setWidth 16 := by
  rcases h with ⟨hmemP, hadcP, hnGood, hupdated⟩ | ⟨hpublish, -⟩ | ⟨-, hmemP, hadcP, hnGood, hupdated⟩
  · simp [hmemP, hadcP, hnGood, hupdated] at hchanged
  · exact hpublish
  · simp [hmemP, hadcP, hnGood, hupdated] at hchanged

theorem SnapshotRule.wasupd_of_cleared (h : SnapshotRule i s t) (hset : s.updated = true)
    (hclear : t.updated = false) : i = .wasupd := by
  rcases h with ⟨-, -, -, hkept⟩ | ⟨-, hrisen⟩ | ⟨hi, -⟩
  · simp [hkept, hset] at hclear
  · simp [hrisen] at hclear
  · exact hi

/-- A `FEED` publishes at the last byte of a frame, if its checksum matches, and else leaves the snapshot (R159,
R180). -/
theorem feedArm_snapshotRule (b : Byte) (s : State) : SnapshotRule (.feed b) s (feedArm b s) := by
  by_cases hd : s.dstate = .awaitChecksumLo
  · rw [feedArm_awaitChecksumLo s hd]
    rcases feedAwaitChecksumLo_cases b s with ⟨hsum, heq⟩ | ⟨-, heq⟩ <;> rw [heq]
    · exact .inr (.inl ⟨⟨b, rfl, hd, hsum⟩, rfl⟩)
    · exact .inl ⟨rfl, rfl, rfl, rfl⟩
  · obtain ⟨hmemP, hadcP, hupdated, -, hnGood, -⟩ := feedArm_keeps_snapshot b hd
    exact .inl ⟨hmemP, hadcP, hnGood, hupdated⟩

/-- Before the response: only `FEED` and `WASUPD` reach the snapshot and its flag. -/
theorem Effect.snapshotRule {r : Word} {d : List Byte} (h : Effect i s u r d) : SnapshotRule i s u := by
  cases h with
  | query | pushFull | written | lastChunk | readEmpty | rxbyteLost | txreadyEmpty =>
    exact .inl ⟨rfl, rfl, rfl, rfl⟩
  | push | popb | popnb | read | rxbyte | txready => exact .inl (by simp)
  | feed => exact feedArm_snapshotRule _ { s with nBytes := bump s.cfg s.nBytes }
  | wasupd => exact .inr (.inr ⟨rfl, rfl, rfl, rfl, rfl⟩)

/-- Neither a response nor a hold touches the snapshot. -/
theorem Performed.snapshotRule (h : Performed i s t) : SnapshotRule i s t := by
  cases h with
  | completes h => exact h.snapshotRule
  | holds | staysInFlight => exact .inl ⟨rfl, rfl, rfl, rfl⟩

/-- Nor does the claim of a role, so every request obeys the rule. -/
theorem exec_snapshotRule (h : exec i s = .next t) : SnapshotRule i s t := by
  obtain ⟨-, hp⟩ := exec_next h
  exact hp.snapshotRule

end Rule

/-- Settles O21: by the two consequences of `SnapshotRule`. -/
theorem snapshotChangesOnlyAtAPublish : Obligations.SnapshotChangesOnlyAtAPublish := fun _ _ _ h =>
  ⟨(exec_snapshotRule h).publish_of_changed, (exec_snapshotRule h).wasupd_of_cleared⟩

/-! ### `WASUPD` (R181) -/

/-- `s` once a `WASUPD` has answered `updated` and cleared it. -/
def State.afterWasupd (s : State) : State :=
  { s.completed (some .updateConsumer) [] (if s.updated then 1 else 0) [] with updated := false }

theorem exec_wasupd {s : State} (hmay : s.mayUse .updateConsumer) : exec .wasupd s = .next s.afterWasupd := by
  change execWasupd s = _
  rw [execWasupd, asRole_claim hmay, respond_eq, State.afterWasupd, ← State.answer_give_eq_completed]
  rfl

/-- The agent at the port keeps the role it has used (R227). -/
theorem State.afterWasupd_mayUse (s : State) : s.afterWasupd.mayUse .updateConsumer :=
  .inr (Roles.get_give_same s.roles .updateConsumer s.port.agent)

/-- The flag is gone after a `WASUPD`, so the next one answers 0. -/
theorem State.afterWasupd_afterWasupd_history (s : State) :
    s.afterWasupd.afterWasupd.history = s.afterWasupd.history ++
      [.response s.port.agent s.port.word { status := .ok, result := 0, data := [] }] := by
  rw [State.afterWasupd, State.completed, List.append_nil]
  rfl

/-- Settles O50: the second `WASUPD` starts from the state that the first one leaves. -/
theorem wasupdConsumesTheFlag : Obligations.WasupdConsumesTheFlag := by
  intro s hmay
  refine ⟨exec_wasupd hmay, fun t ht => ?_⟩
  cases (exec_wasupd hmay).symm.trans ht
  exact ⟨_, exec_wasupd s.afterWasupd_mayUse, s.afterWasupd_afterWasupd_history⟩

/-! ### The status queries (R182 to R185) -/

/-- Settles O51: each query only answers. -/
theorem decoderStatusQueriesAnswer : Obligations.DecoderStatusQueriesAnswer := fun s =>
  ⟨respond_completed s _ [], respond_completed s _ [], respond_completed s _ [], respond_completed s _ []⟩

/-! ### `MEM` and `ADC` (R186, R187) -/

theorem Memory.fetch_of_read?_none {w : Nat} {free : Nat → BitVec w} {m : Memory w} {a : Nat}
    (h : Memory.read? m a = none) : Memory.fetch free m a = free a := by
  simp [Memory.fetch, h]

section Reads

variable {s : State} {a : Nat}

theorem exec_mem (s : State) (a : Nat) :
    exec (.mem a) s = .next (s.completed none [] ((s.mem a).setWidth 32) []) := respond_completed s _ []

theorem exec_adc (s : State) (i : Nat) :
    exec (.adc i) s = .next (s.completed none [] ((s.adc i).setWidth 32) []) := respond_completed s _ []

theorem State.mem_of_published {v : Byte} (h : Memory.read? s.memP a = some v) : s.mem a = v :=
  Memory.fetch_of_read? h

theorem State.mem_of_unpublished (h : Memory.read? s.memP a = none) : s.mem a = Config.freeByte s.draws a :=
  Memory.fetch_of_read?_none h

theorem State.adc_of_published {v : Half} (h : Memory.read? s.adcP a = some v) : s.adc a = v :=
  Memory.fetch_of_read? h

theorem State.adc_of_unpublished (h : Memory.read? s.adcP a = none) : s.adc a = Config.freeHalf s.draws a :=
  Memory.fetch_of_read?_none h

end Reads

/-- Settles O52: the element is the published one or the step's free draw (R40). -/
theorem snapshotReadsAnswer : Obligations.SnapshotReadsAnswer := by
  intro s a i
  rw [exec_mem, exec_adc]
  exact ⟨fun v h => by rw [State.mem_of_published h], fun h => by rw [State.mem_of_unpublished h],
    fun v h => by rw [State.adc_of_published h], fun h => by rw [State.adc_of_unpublished h]⟩

end Sys2Proof.Machine

/-! The statements of 44_view: each view request's result against the spec's formula, the rounded ones (R203, R204,
R206) as rational formulas rounded to nearest with ties up (R210), and the order of the trouble codes (R209). -/

namespace Sys2Proof.Machine

/-! ### Speed and voltage (R201, R202, R205) -/

/-- A byte answered as it stands is zero-extended (R200). -/
theorem resultOf_byte (b : Byte) : resultOf b.toNat = b.setWidth 32 := BitVec.ofNat_toNat 32 b

/-- The floor of a rational written as a fraction of integers is their integer division. -/
theorem floor_eq_ediv {q : ℚ} {n : ℤ} {d : ℕ} (h : q = n / d) : ⌊q⌋ = n / d :=
  h ▸ Rat.floor_intCast_div_natCast n d

theorem engineSpeed_eq_floor (m : Nat) : (engineSpeed m : ℤ) = m * 31 + ⌊(m : ℚ) / 4⌋ := by
  rw [floor_eq_ediv (n := m) (d := 4) (by norm_num), engineSpeed]
  omega

theorem engineSpeed_le {m : Nat} (hm : m < 256) : engineSpeed m ≤ 7968 := by
  rw [engineSpeed]
  omega

/-- Settles O54: the engine speed's quarter is truncated (R201), the two bytes are answered as they stand. -/
theorem speedAndVoltageAnswer : Obligations.SpeedAndVoltageAnswer := by
  intro s
  refine ⟨⟨engineSpeed (s.mem 0xF3).toNat, exec_view (.inl (by simp)) s, engineSpeed_eq_floor _,
    engineSpeed_le (s.mem 0xF3).isLt⟩, ?_, ?_⟩
  · rw [exec_view (.inl (by simp)), viewResult, resultOf_byte]
  · rw [exec_view (.inl (by simp)), viewResult, resultOf_byte]

/-! ### Oil pressure (R203) -/

theorem oilPressure_below {c : Nat} (h : c < 102) : oilPressure c = 0 := by
  rw [oilPressure, if_pos h]

theorem oilPressure_above {c : Nat} (h : 921 < c) : oilPressure c = 100 := by
  rw [oilPressure, if_neg (by omega), if_pos h]

/-- Between the clamps: `x / 8.192 + 1/2` is `(125 * x + 512) / 1024`. -/
theorem oilPressure_between {c : Nat} (hlow : 102 ≤ c) (hhigh : c ≤ 921) :
    (oilPressure c : ℤ) = ⌊((c : ℚ) - 102) / (8192 / 1000) + 1 / 2⌋ := by
  rw [floor_eq_ediv (n := (c - 102) * 125 + 512) (d := 1024) (by push_cast; ring), oilPressure,
    if_neg (by omega), if_neg (by omega)]
  omega

/-- Settles O55: one equation per clamp, and the calibration between them. -/
theorem oilPressureIsTheRoundedCalibration : Obligations.OilPressureIsTheRoundedCalibration := fun s =>
  ⟨oilPressure (s.adc 2).toNat, exec_view (.inl (by simp)) s, oilPressure_below, oilPressure_above,
    oilPressure_between⟩

/-! ### Water temperature (R204) -/

/-- The curve plus 1/2 is `(3 * m - 158) / 4`. Where the rule's guard `3 * m < 160` answers 0, its floor is at most
0, so the clamp answers 0 too. -/
theorem waterTemperature_eq_floor (m : Nat) :
    (waterTemperature m : ℤ) = max 0 ⌊(m : ℚ) * (3 / 4) - 40 + 1 / 2⌋ := by
  rw [floor_eq_ediv (n := 3 * m - 158) (d := 4) (by push_cast; ring), waterTemperature]
  split <;> omega

theorem waterTemperature_le {m : Nat} (hm : m < 256) : waterTemperature m ≤ 151 := by
  rw [waterTemperature]
  split <;> omega

/-- Settles O56: the integer rule is the rounded curve for every `m`; a byte bounds it. -/
theorem waterTemperatureIsTheRoundedCurve : Obligations.WaterTemperatureIsTheRoundedCurve := fun s =>
  ⟨waterTemperature (s.mem 0xE3).toNat, exec_view (.inl (by simp)) s, waterTemperature_eq_floor _,
    waterTemperature_le (s.mem 0xE3).isLt⟩

/-! ### Air-fuel ratio (R206) -/

/-- The formula plus 1/2 is `(25 * c + 128) / 256 + 96`. -/
theorem airFuelRatio_eq_floor (c : Nat) :
    (airFuelRatio c : ℤ) = ⌊((c : ℚ) / (1024 / 10) + 96 / 10) * 10 + 1 / 2⌋ := by
  rw [floor_eq_ediv (n := c * 25 + 128 + 96 * 256) (d := 256) (by push_cast; ring), airFuelRatio]
  omega

theorem airFuelRatio_le {c : Nat} (hc : c < 65536) : airFuelRatio c ≤ 6496 := by
  rw [airFuelRatio]
  omega

/-- Settles O57: the integer rule is the rounded formula for every `c`; 16 bits bound it. -/
theorem airFuelRatioIsRounded : Obligations.AirFuelRatioIsRounded := fun s =>
  ⟨airFuelRatio (s.adc 1).toNat, exec_view (.inl (by simp)) s, airFuelRatio_eq_floor _,
    airFuelRatio_le (s.adc 1).isLt⟩

/-! ### The status bits (R207, R208) -/

theorem boolResult_getLsbD {w : Nat} (b : BitVec w) (i : Nat) :
    boolResult (b.getLsbD i) = BitVec.ofNat 32 (b.toNat / 2 ^ i % 2) := by
  rw [← Nat.toNat_testBit, BitVec.testBit_toNat]
  cases b.getLsbD i <;> rfl

/-- Settles O58: above bit 7 a byte has no bit, so its quotient by 128 is that bit. -/
theorem statusBitsAnswer : Obligations.StatusBitsAnswer := by
  intro s
  rw [exec_view (.inl (by simp)), exec_view (.inl (by simp))]
  have hrun : (s.mem 0x01).toNat / 2 ^ 7 % 2 = (s.mem 0x01).toNat / 128 := by
    have := (s.mem 0x01).isLt
    omega
  constructor
  · rw [viewResult, boolResult_getLsbD, pow_zero, Nat.div_one]
  · rw [viewResult, boolResult_getLsbD, hrun]

/-! ### The trouble codes (R209) -/

section Codes

variable {on : Nat → Bool}

/-- The codes of one byte are the numbers from `base` on that its bits put on. -/
theorem codesOfByte_eq_filter {base : Nat} {b : Byte} (h : ∀ q < 8, on (base + q) = b.getLsbD q) :
    codesOfByte base b = (List.range' base 8).filter on := by
  rw [List.range'_eq_map_range, List.filter_map, ← List.filterMap_eq_map, List.filterMap_filter]
  exact List.filterMap_congr fun q hq => by rw [Function.comp_apply, h q (List.mem_range.mp hq)]; rfl

/-- The active codes are the numbers below 24 that are on, in ascending order. -/
theorem activeCodes_eq_filter {f : Nat → Byte} (h : ∀ c, on c = (f (c / 8)).getLsbD (c % 8)) :
    activeCodes (f 0) (f 1) (f 2) = (List.range 24).filter on := by
  have hbyte (j : Nat) : codesOfByte (8 * j) (f j) = (List.range' (8 * j) 8).filter on :=
    codesOfByte_eq_filter fun q hq => by
      rw [h, show (8 * j + q) / 8 = j by omega, show (8 * j + q) % 8 = q by omega]
  calc activeCodes (f 0) (f 1) (f 2)
      = (List.range' 0 8).filter on ++ (List.range' 8 8).filter on ++ (List.range' 16 8).filter on := by
        rw [activeCodes, hbyte 0, hbyte 1, hbyte 2]
    _ = (List.range 24).filter on := by
        rw [← List.filter_append, ← List.filter_append]
        rfl

/-- A number that is on stands in the filtered range behind the numbers below it that are on. -/
theorem filter_range_getElem?_countP {n c : Nat} (hc : c < n) (hon : on c = true) :
    ((List.range n).filter on)[(List.range c).countP on]? = some c := by
  obtain ⟨k, rfl⟩ : ∃ k, n = c + (k + 1) := ⟨n - c - 1, by omega⟩
  rw [List.range_add, List.range_succ_eq_map, List.map_cons, List.filter_append, Nat.add_zero,
    List.filter_cons_of_pos hon, List.countP_eq_length_filter, List.getElem?_append_right le_rfl,
    Nat.sub_self, List.getElem?_cons_zero]

theorem troubleCode_filter_of_on {n c : Nat} (hc : c < n) (hon : on c = true) :
    troubleCode ((List.range n).filter on) ((List.range c).countP on) = c := by
  rw [troubleCode, List.getD_eq_getElem?_getD, filter_range_getElem?_countP hc hon, Option.getD_some]

theorem troubleCode_filter_of_countP_le {l : List Nat} {k : Nat} (hk : l.countP on ≤ k) :
    troubleCode (l.filter on) k = 0xFFFF :=
  List.getD_eq_default _ _ (List.countP_eq_length_filter ▸ hk)

end Codes

/-- Settles O59: the active codes are the range below 24 filtered, in which each code's index is the number of
active codes below it. -/
theorem dtcAnswersTheKthSetBit : Obligations.DtcAnswersTheKthSetBit := by
  intro k s on hon
  have hcodes : activeCodes (s.mem 0x12) (s.mem 0x13) (s.mem 0x14) = (List.range 24).filter on :=
    activeCodes_eq_filter (f := fun j => s.mem (0x12 + j)) hon
  refine ⟨_, exec_view (.inr ⟨k, rfl⟩) s, ?_, ?_⟩
  · rintro c hc hset rfl
    rw [hcodes, troubleCode_filter_of_on hc hset]
  · intro hk
    rw [hcodes, troubleCode_filter_of_countP_le hk]

end Sys2Proof.Machine

/-! The statements of 60_exceptions: the context check (R226) and the role check (R227) with their refusals (R221), and
the duty of TXI (R235). -/

namespace Sys2Proof.Machine

open Host (Outcome)

/-! ### The checks every request passes (R222)

`exec` is, for every request, the context check, then the role check, then a body that runs no further check but that of
a data list. Who is refused with codes 7 and 8 is then read off the two checks alone. -/

/-- The context check of a request: only one that can hold is barred from interrupt context (R226). -/
def contextChecked (i : Instr) (s : State) (run : State → Outcome State Fault Refusal) :
    Outcome State Fault Refusal :=
  match i.canHold with
  | true => taskOnly s run
  | false => run s

/-- The role check of a request: one that uses no role passes (R227). -/
def roleChecked (i : Instr) (s : State) (run : State → Outcome State Fault Refusal) :
    Outcome State Fault Refusal :=
  match roleOf i with
  | none => run s
  | some r => asRole r s run

/-- What is left to a request once its context and its role have passed: anything but the refusals of codes 7 and 8. -/
inductive PastChecks : Outcome State Fault Refusal → Prop
  | next (t : State) : PastChecks (.next t)
  | fault (f : Fault) : PastChecks (.fault f)
  | data (s : State) : PastChecks (refuseData s)

section Checks

variable {i : Instr} {s : State} {run : State → Outcome State Fault Refusal}

theorem contextChecked_interrupt (hi : i.canHold = true) (ha : s.port.agent.isInterrupt = true) :
    contextChecked i s run = refuseContext s := by
  rw [contextChecked, hi]
  exact taskOnly_interrupt ha

theorem contextChecked_passes (h : i.canHold = true → s.port.agent.isInterrupt = false) :
    contextChecked i s run = run s := by
  cases hi : i.canHold with
  | false => rw [contextChecked, hi]
  | true =>
    rw [contextChecked, hi]
    exact taskOnly_task (h hi)

theorem roleChecked_other {r : Role} {a : Agent} (hi : roleOf i = some r) (hr : s.roles.get r = some a)
    (ha : a ≠ s.port.agent) : roleChecked i s run = refuseRole s := by
  rw [roleChecked, hi]
  exact asRole_other hr ha

/-- The role check runs the request's body on the claimed role, or refuses with code 8 for another agent's sake. -/
theorem roleChecked_cases (i : Instr) (s : State) (run : State → Outcome State Fault Refusal) :
    roleChecked i s run = run (s.claim (roleOf i)) ∨
      (∃ r a, roleOf i = some r ∧ s.roles.get r = some a ∧ a ≠ s.port.agent) ∧
        roleChecked i s run = refuseRole s := by
  unfold roleChecked
  cases roleOf i with
  | none => exact .inl rfl
  | some r =>
    rcases asRole_cases r s run with ⟨-, heq⟩ | ⟨⟨a, hr, ha⟩, heq⟩
    · exact .inl heq
    · exact .inr ⟨⟨r, a, rfl, hr, ha⟩, heq⟩

end Checks

theorem writeStep_pastChecks (n : Nat) (s : State) : PastChecks (writeStep n s) := by
  obtain ⟨t, ht⟩ := writeStep_answers n s
  exact ht ▸ .next t

theorem readStep_pastChecks (wait : Bool) (n : Nat) (s : State) : PastChecks (readStep wait n s) := by
  obtain ⟨t, ht⟩ := readStep_answers wait n s
  exact ht ▸ .next t

theorem withData_pastChecks (n : Nat) (s : State) : PastChecks (withData n s (writeStep n)) := by
  unfold withData
  split
  · exact writeStep_pastChecks n s
  · exact .data s

/-- Every request is its context check, its role check, and a body that refuses for neither (R222). -/
theorem exec_eq_checked (i : Instr) :
    ∃ run : State → Outcome State Fault Refusal,
      (∀ s, exec i s = contextChecked i s fun s => roleChecked i s run) ∧ ∀ u, PastChecks (run u) := by
  cases i with
  | write n => exact ⟨fun s => withData n s (writeStep n), fun _ => rfl, withData_pastChecks n⟩
  | read wait n => exact ⟨readStep wait n, fun _ => by cases wait <;> rfl, readStep_pastChecks wait n⟩
  | popb =>
    refine ⟨_, fun s => show execPopb s = taskOnly s fun s => asRole .rxConsumer s _ from rfl, fun u => ?_⟩
    split <;> exact .next _
  | push | rxbyte | txready =>
    refine ⟨_, fun _ => rfl, fun u => ?_⟩
    split <;> exact .next _
  | feed =>
    refine ⟨_, fun _ => rfl, fun u => ?_⟩
    split
    · exact .fault _
    · exact .next _
  | popnb | wasupd | free | avail | wspace | ravail | rxlost | nbytes | ngood | nbad | conn | mem | adc | engspd
  | gndspd | oilp | wtemp | volt | afr | ses | run | dtc => exact ⟨_, fun _ => rfl, fun _ => .next _⟩

/-! ### Who is refused -/

section Refusals

variable {i : Instr} {s : State}

/-- A request that can hold is refused with code 7 to an agent in interrupt context (R226). -/
theorem exec_interrupt (hi : i.canHold = true) (ha : s.port.agent.isInterrupt = true) :
    exec i s = refuseContext s := by
  obtain ⟨run, hexec, -⟩ := exec_eq_checked i
  rw [hexec, contextChecked_interrupt hi ha]

/-- Past the context check, a request in another agent's role is refused with code 8 (R222, R227). -/
theorem exec_otherRole {r : Role} {a : Agent} (hctx : i.canHold = true → s.port.agent.isInterrupt = false)
    (hi : roleOf i = some r) (hr : s.roles.get r = some a) (ha : a ≠ s.port.agent) : exec i s = refuseRole s := by
  obtain ⟨run, hexec, -⟩ := exec_eq_checked i
  rw [hexec, contextChecked_passes hctx, roleChecked_other hi hr ha]

/-- Everything a request can be refused for: its context, another agent's role, or past these its data list. -/
theorem exec_refused {q : Refusal} (h : exec i s = .refused q) :
    (i.canHold = true ∧ s.port.agent.isInterrupt = true ∧ refuseContext s = .refused q) ∨
    ((∃ r a, roleOf i = some r ∧ s.roles.get r = some a ∧ a ≠ s.port.agent) ∧ refuseRole s = .refused q) ∨
    PastChecks (.refused q) := by
  by_cases hctx : i.canHold = true → s.port.agent.isInterrupt = false
  · obtain ⟨run, hexec, hrun⟩ := exec_eq_checked i
    rw [hexec, contextChecked_passes hctx] at h
    rcases roleChecked_cases i s run with heq | ⟨hother, heq⟩ <;> rw [heq] at h
    · exact .inr (.inr (h ▸ hrun _))
    · exact .inr (.inl ⟨hother, h⟩)
  · obtain ⟨hi, ha⟩ : i.canHold = true ∧ s.port.agent.isInterrupt = true := by simpa using hctx
    exact .inl ⟨hi, ha, exec_interrupt hi ha ▸ h⟩

end Refusals

/-- Settles O23: the context check refuses, and no other part of a request refuses with its code. -/
theorem holdingRequestsAreRefusedToInterrupts : Obligations.HoldingRequestsAreRefusedToInterrupts := by
  intro i s
  refine ⟨fun hi ha => (exec_interrupt hi ha).trans (refuseContext_eq s), fun hpass a w h heq => ?_⟩
  rcases exec_refused heq with ⟨hi, ha, -⟩ | ⟨-, hrole⟩ | hpast
  · simp [hi, ha] at hpass
  · cases hrole
  · cases hpast

/-- Settles O24: the role check refuses, or claims the role the request's step leaves claimed; code 8 is its alone. -/
theorem aRoleBelongsToItsFirstUser : Obligations.ARoleBelongsToItsFirstUser := by
  intro i s
  refine ⟨fun r a hi hr ha hctx => (exec_otherRole hctx hi hr ha).trans (refuseRole_eq s), fun t h => ?_,
    fun a w h heq => ?_⟩
  · obtain ⟨-, hp⟩ := exec_next h
    obtain ⟨-, hroles, -⟩ := hp.frame
    exact hroles
  · rcases exec_refused heq with ⟨-, -, hcontext⟩ | ⟨hother, -⟩ | hpast
    · cases hcontext
    · exact hother
    · cases hpast

/-! ### What a step's events say of the transmitter (R235) -/

section Duty

variable {i : Instr} {s t u : State}

theorem State.owes_emit (s : State) (e : Event) :
    txiOwesTxready (s.emit e) = transmitterAfter (txiOwesTxready s) e :=
  txiOwesTxready_append (State.emit_history s e)

/-- The response of a request other than `TXREADY` leaves the duty as it was. -/
theorem State.owes_answer (hw : decode s.port.word ≠ .ok .txready) (st : Status) (r : Word) (d : List Byte) :
    txiOwesTxready (s.answer st r d) = txiOwesTxready s :=
  (txiOwesTxready_append (State.answer_history s st r d)).trans
    (transmitterAfter_response_other (a := s.port.agent) hw)

/-- The response of a `TXREADY` keeps the duty exactly when its valid bit is 1. -/
theorem State.owes_answer_txready (hw : decode s.port.word = .ok .txready) (st : Status) (r : Word) (d : List Byte) :
    txiOwesTxready (s.answer st r d) = (txiOwesTxready s && r.getLsbD 8) :=
  (txiOwesTxready_append (State.answer_history s st r d)).trans
    (transmitterAfter_response_txready (a := s.port.agent) hw)

@[simp] theorem State.owes_suspend (s : State) (w : Option Chan) :
    txiOwesTxready (s.suspend w) = txiOwesTxready s := rfl

/-- A chunk ends with its `TxStart` (R127). -/
@[simp] theorem State.owes_writeChunk (s : State) (n : Nat) : txiOwesTxready (s.writeChunk n) = true :=
  txiOwesTxready_append (s := s) (es := [.txStart]) rfl

theorem owes_of_history (h : t.history = s.history) : txiOwesTxready t = txiOwesTxready s := by
  rw [txiOwesTxready, h, txiOwesTxready]

/-- Conditions do not touch the transmitter. -/
theorem owes_of_conditions {cs : List Condition} (h : t.history = s.history ++ cs.map .condition) :
    txiOwesTxready t = txiOwesTxready s := by
  rw [txiOwesTxready_append h]
  induction cs generalizing t with
  | nil => rfl
  | cons c cs ih => exact ih (t := { s with history := s.history ++ cs.map .condition }) rfl

/-- Taking a request to the port records its issue or its Resume at most, and moves no byte. -/
theorem State.atPort_owes {a : Agent} (h : s.atPort a = some u) :
    txiOwesTxready u = txiOwesTxready s ∧ u.tx.count = s.tx.count := by
  rcases State.atPort_cases h with ⟨q, qs, -, rfl⟩ | ⟨k, -, ⟨-, rfl⟩ | ⟨ch, -, -, rfl⟩⟩
  · exact ⟨txiOwesTxready_append (State.issue_history s a q qs), rfl⟩
  · exact ⟨rfl, rfl⟩
  · exact ⟨txiOwesTxready_append (State.resumed_history s a ch), by cases ch <;> rfl⟩

/-! ### The duty after each request -/

/-- One step of a `WRITE` starts the transmitter exactly when there is something to copy and room for it. -/
theorem writeStep_owes {n : Nat} (hd : decode s.port.word = .ok (.write n)) (h : writeStep n s = .next t) :
    txiOwesTxready t = (txiOwesTxready s || decide (s.port.done ≠ n ∧ 0 < s.freeOf .tx)) := by
  have hw : decode s.port.word ≠ .ok .txready := by simp [hd]
  unfold writeStep at h
  split at h
  · next hdone => cases h; simp [State.owes_answer hw, hdone]
  next hmore =>
  split at h
  · next hfree =>
    have hcopies : s.port.done ≠ n ∧ 0 < s.freeOf .tx := ⟨hmore, hfree⟩
    split at h <;> cases h
    · rw [State.owes_answer (s := s.writeChunk n) hw]
      simp [hcopies]
    · simp [hcopies]
  · next hfull => cases h; simp [State.owes_emit, transmitterAfter, hfull]

/-- The same of the whole request: its checks touch neither the duty nor TX. -/
theorem exec_write_owes {n : Nat} (hd : decode s.port.word = .ok (.write n)) (h : exec (.write n) s = .next t) :
    txiOwesTxready t = (txiOwesTxready s || decide (s.port.done ≠ n ∧ s.tx.count < s.cfg.cTx)) := by
  change execWrite n s = .next t at h
  obtain ⟨-, h⟩ := taskOnly_next h
  obtain ⟨-, h⟩ := asRole_next h
  obtain ⟨-, h⟩ := withData_next h
  rw [writeStep_owes (s := s.claim (some .txProducer)) hd h, State.claim_freeOf, State.freeOf]
  simp only [Nat.sub_pos_iff_lt]
  rfl

/-- A `TXREADY` answers valid 1 and keeps the duty, or finds TX empty, answers valid 0 and ends it (R128). -/
theorem Performed.txready_owes (h : Performed .txready s t) (hd : decode s.port.word = .ok .txready) :
    (0 < s.tx.count ∧ txiOwesTxready t = txiOwesTxready s) ∨
      (s.tx.count = 0 ∧ txiOwesTxready t = false ∧
        t.history.getLast? = some (.response s.port.agent s.port.word { status := .ok, result := 0, data := [] })) := by
  cases h with
  | completes heff =>
    cases heff with
    | query hi => cases hi
    | txready hc =>
      obtain ⟨hvalid, -⟩ := txready_result (s.tx.head (Config.freeByte s.draws))
      refine .inl ⟨hc, ?_⟩
      rw [State.owes_answer_txready (by simpa using hd), hvalid, Bool.and_true]
      exact owes_of_history (by simp)
    | txreadyEmpty hc =>
      refine .inr ⟨Nat.eq_zero_of_not_pos hc, ?_, by simp⟩
      rw [State.owes_answer_txready hd]
      exact Bool.and_false _
  | holds hw => cases hw

/-- Before its response a request other than `WRITE` records conditions only. -/
theorem Effect.history_conditions {r : Word} {d : List Byte} (h : Effect i s u r d) (hi : ∀ n, i ≠ .write n) :
    ∃ cs : List Condition, u.history = s.history ++ cs.map .condition := by
  cases h with
  | written | lastChunk => exact absurd rfl (hi _)
  | query | readEmpty | txreadyEmpty | wasupd | push | popb | popnb | read | rxbyte | txready => exact ⟨[], by simp⟩
  | @pushFull ch => exact ⟨[.pushFull ch], rfl⟩
  | @rxbyteLost b => exact ⟨[.rxOverflow b], rfl⟩
  | @feed b => exact feedArm_history b { s with nBytes := bump s.cfg s.nBytes }

/-- A request other than `WRITE` and `TXREADY` neither starts nor stops the transmitter. -/
theorem exec_other_owes (hd : decode s.port.word = .ok i) (hready : i ≠ .txready) (hwrite : ∀ n, i ≠ .write n)
    (h : exec i s = .next t) : txiOwesTxready t = txiOwesTxready s := by
  obtain ⟨-, hp⟩ := exec_next h
  cases hp with
  | @completes _ _ u r d heff =>
    obtain ⟨cs, hcs⟩ := heff.history_conditions hwrite
    obtain ⟨-, -, -, -, hword⟩ := heff.frame
    have hw : decode u.port.word ≠ .ok .txready := by
      rw [hword, State.claim_port, hd]
      simpa using hready
    rw [State.owes_answer hw]
    exact owes_of_conditions (s := s) hcs
  | holds => exact State.owes_emit _ _
  | staysInFlight => exact absurd rfl (hwrite _)

/-- The ILLEGAL answer leaves the duty as it was (R76). -/
theorem illegal_owes {e : Illegal} (hd : decode s.port.word = .error e) :
    txiOwesTxready ((s.meets (.illegalCommand s.port.word)).answer .illegal 0 []) = txiOwesTxready s := by
  have hw : decode (s.meets (.illegalCommand s.port.word)).port.word ≠ .ok .txready := by simp [hd]
  rw [State.owes_answer hw]
  exact State.owes_emit _ _

/-! ### The duty over a step -/

/-- A step that is no reset and ends a duty that was owed ends with a `TXREADY` that found TX empty. -/
theorem step_owes (h : step s = .next t) (hnoReset : s.schedule.head? ≠ some .reset)
    (howed : txiOwesTxready s = true) :
    txiOwesTxready t = true ∨
      (s.tx.count = 0 ∧ ∃ a w r, t.history.getLast? = some (.response a w r) ∧ decode w = .ok .txready ∧
        r.result.getLsbD 8 = false) := by
  obtain ⟨-, ⟨-, rfl⟩ | ⟨later, hs, -⟩ | ⟨a, later, -, hturn⟩⟩ := step_cases h
  · exact .inl howed
  · exact absurd (by rw [hs]; rfl) hnoReset
  rcases hturn with ⟨-, rfl⟩ | ⟨u, hu, hperform⟩
  · exact .inl howed
  obtain ⟨hsame, hcount⟩ := State.atPort_owes hu
  have howedAtPort : txiOwesTxready u = true := hsame.trans howed
  rcases hperform with ⟨e, hd, rfl⟩ | ⟨i, hd, hi⟩
  · exact .inl ((illegal_owes hd).trans howedAtPort)
  by_cases hready : i = .txready
  · subst hready
    obtain ⟨-, hp⟩ := exec_next hi
    rcases hp.txready_owes hd with ⟨-, hkept⟩ | ⟨hempty, -, hlast⟩
    · exact .inl (hkept.trans howedAtPort)
    · exact .inr ⟨hcount.symm.trans hempty, _, _, _, hlast, hd, rfl⟩
  · by_cases hwrite : ∃ n, i = .write n
    · obtain ⟨n, rfl⟩ := hwrite
      exact .inl (by rw [exec_write_owes hd hi, howedAtPort, Bool.true_or])
    · exact .inl ((exec_other_owes hd hready (not_exists.1 hwrite) hi).trans howedAtPort)

end Duty

/-- Settles O38: by what each kind of request does to the duty, and then over whole steps. -/
theorem transmitterRunsUntilAnInvalidTxready : Obligations.TransmitterRunsUntilAnInvalidTxready := by
  intro s t
  refine ⟨fun n hd h => ?_, fun hd h => ?_, fun i hd hready hwrite h => exec_other_owes hd hready hwrite h,
    fun e hd h => ?_, step_owes⟩
  · rw [exec_write_owes hd h]
    refine ⟨fun hmore hroom => by simp [hmore.ne, hroom], fun hnothing => ?_⟩
    have hcopies : ¬ (s.port.done ≠ n ∧ s.tx.count < s.cfg.cTx) := by omega
    rw [decide_eq_false hcopies, Bool.or_false]
  · obtain ⟨-, hp⟩ := exec_next h
    rcases hp.txready_owes hd with ⟨hc, hkept⟩ | ⟨hempty, hended, -⟩
    · exact ⟨fun _ => hkept, fun hempty => absurd hempty hc.ne'⟩
    · exact ⟨fun hc => absurd hempty hc.ne', fun _ => hended⟩
  · rw [perform_of_error hd] at h
    cases h
    exact illegal_owes hd

end Sys2Proof.Machine

/-! The statements of 70_reset_and_hazards: no step but a reset takes the connected flag or a counter back (R251), and a
doubled sync byte is missed (R256). -/

namespace Sys2Proof.Machine

/-! ### The counters and the connected flag outside a reset (R33, R34, R251) -/

/-- What R33 and R34 allow between two resets: `connected` is not cleared, and each counter stays or is bumped. -/
def CountsUp (s t : State) : Prop :=
  (s.connected = true → t.connected = true) ∧
    (t.nBytes = s.nBytes ∨ t.nBytes = bump s.cfg s.nBytes) ∧
    (t.nGood = s.nGood ∨ t.nGood = bump s.cfg s.nGood) ∧
    (t.nBad = s.nBad ∨ t.nBad = bump s.cfg s.nBad) ∧
    (t.rxLost = s.rxLost ∨ t.rxLost = bump s.cfg s.rxLost)

section Counts

variable {i : Instr} {s t u : State} {a : Agent}

theorem CountsUp.of_same (h : t.connected = s.connected ∧ t.nBytes = s.nBytes ∧ t.nGood = s.nGood ∧
    t.nBad = s.nBad ∧ t.rxLost = s.rxLost) : CountsUp s t := by
  obtain ⟨hconnected, hnBytes, hnGood, hnBad, hrxLost⟩ := h
  exact ⟨fun hset => hconnected.trans hset, .inl hnBytes, .inl hnGood, .inl hnBad, .inl hrxLost⟩

/-- The last byte of a frame connects and counts it good, or counts it bad; no other byte touches these (R159). -/
theorem feedArm_countsUp (b : Byte) (s : State) : CountsUp s (feedArm b s) := by
  by_cases hd : s.dstate = .awaitChecksumLo
  · rw [feedArm_awaitChecksumLo s hd]
    rcases feedAwaitChecksumLo_cases b s with ⟨-, heq⟩ | ⟨-, heq⟩ <;> rw [heq]
    · exact ⟨fun _ => rfl, .inl rfl, .inr rfl, .inl rfl, .inl rfl⟩
    · exact ⟨id, .inl rfl, .inl rfl, .inr rfl, .inl rfl⟩
  · obtain ⟨-, -, -, hconnected, hnGood, hnBad⟩ := feedArm_keeps_snapshot b hd
    exact .of_same ⟨hconnected, feedArm_nBytes b s, hnGood, hnBad, feedArm_rxLost b s⟩

/-- Before the response: `FEED` counts its byte, and its arm the frame; an `RXBYTE` counts a lost byte (R130, R152). -/
theorem Effect.countsUp {r : Word} {d : List Byte} (h : Effect i s u r d) : CountsUp s u := by
  cases h with
  | query | pushFull | written | lastChunk | readEmpty | txreadyEmpty | wasupd =>
    exact .of_same ⟨rfl, rfl, rfl, rfl, rfl⟩
  | push | popb | popnb | read | rxbyte | txready => exact .of_same (by simp)
  | rxbyteLost => exact ⟨id, .inl rfl, .inl rfl, .inl rfl, .inr rfl⟩
  | @feed b =>
    obtain ⟨hconnected, -, hframes⟩ := feedArm_countsUp b { s with nBytes := bump s.cfg s.nBytes }
    exact ⟨hconnected, .inr (feedArm_nBytes b _), hframes⟩

/-- Neither a response nor a hold touches the counters. -/
theorem Performed.countsUp (h : Performed i s t) : CountsUp s t := by
  cases h with
  | completes h => exact h.countsUp
  | holds | staysInFlight => exact .of_same ⟨rfl, rfl, rfl, rfl, rfl⟩

/-- Nor does the claim of a role. -/
theorem exec_countsUp (h : exec i s = .next t) : CountsUp s t := by
  obtain ⟨-, hp⟩ := exec_next h
  exact hp.countsUp

/-- Nor does taking a request to the port, so what counts from there counts from before. -/
theorem CountsUp.of_atPort (hu : s.atPort a = some u) (h : CountsUp u t) : CountsUp s t := by
  rcases State.atPort_cases hu with ⟨q, qs, -, rfl⟩ | ⟨k, -, ⟨-, rfl⟩ | ⟨ch, -, -, rfl⟩⟩
  · exact h
  · exact h
  · cases ch <;> exact h

/-- A step is a reset, or it passes its turn, answers ILLEGAL or performs a request. -/
theorem step_countsUp (h : step s = .next t) (hnoReset : s.schedule.head? ≠ some .reset) : CountsUp s t := by
  obtain ⟨-, ⟨-, rfl⟩ | ⟨later, hs, -⟩ | ⟨a, later, -, ⟨-, rfl⟩ | ⟨u, hu, hperform⟩⟩⟩ := step_cases h
  · exact .of_same ⟨rfl, rfl, rfl, rfl, rfl⟩
  · exact absurd (by rw [hs]; rfl) hnoReset
  · exact .of_same ⟨rfl, rfl, rfl, rfl, rfl⟩
  suffices hfromPort : CountsUp u t from
    CountsUp.of_atPort (s := { s with schedule := later }) hu hfromPort
  rcases hperform with ⟨e, -, rfl⟩ | ⟨i, -, hi⟩
  · exact .of_same ⟨rfl, rfl, rfl, rfl, rfl⟩
  · exact exec_countsUp hi

end Counts

/-- Settles O20: `CountsUp` over a step, with the bump of each counter written out. -/
theorem onlyResetClearsCountersAndConnected : Obligations.OnlyResetClearsCountersAndConnected :=
  fun _ _ => step_countsUp

/-! ### The doubled sync byte (R256) -/

/-- A byte that does not complete the sync pair leaves the decoder waiting for the first of the two (R153, R154). -/
theorem exec_feed_framingError {b : Byte} {s : State} (hmay : s.mayUse .decoderFeeder)
    (hb : (s.dstate = .awaitSync1 ∧ b ≠ 0x55) ∨ (s.dstate = .awaitSync2 ∧ b ≠ 0xAA)) :
    ∃ t, exec (.feed b) s = .next t ∧ t.mayUse .decoderFeeder ∧ t.dstate = .awaitSync1 := by
  obtain ⟨-, hnotFirst, -, hnotSecond⟩ := feedHuntsForSync b s hmay
  rcases hb with ⟨hd, hb⟩ | ⟨hd, hb⟩
  · exact ⟨_, hnotFirst hd hb, s.fed_mayUse _, hd⟩
  · exact ⟨_, hnotSecond hd hb, s.fed_mayUse [.condition (.framingError b)], rfl⟩

/-- Settles O47: the second `0x55` is consumed as a mismatch, so `0xAA` comes to AwaitSync1 and is another one. -/
theorem doubledSyncByteIsMissed : Obligations.DoubledSyncByteIsMissed := by
  intro s hmay hd
  obtain ⟨t, hfirst, -, hmay, hd, -⟩ := exec_feed_sync1 hmay hd
  obtain ⟨u, hsecond, hmay, hd⟩ := exec_feed_framingError (b := 0x55) hmay (.inr ⟨hd, by decide⟩)
  obtain ⟨v, hthird, -, hd⟩ := exec_feed_framingError (b := 0xAA) hmay (.inl ⟨hd, by decide⟩)
  exact ⟨v, (execAll_cons hfirst).trans ((execAll_cons hsecond).trans (execAll_cons hthird)), hd⟩

end Sys2Proof.Machine
